-- ==== Sys2Proof/Word.lean ====
section
/-! DEFINITION. The word types of the block: bytes of the song and 16-bit registers (10_state.md). -/

namespace Sys2Proof

/-- A byte of the song image, and every 8-bit register (20_memory.md R83). -/
abbrev Byte := BitVec 8

/-- A 16-bit register: cursors, frequencies, delays (10_state.md R22, R24, R40). -/
abbrev Word := BitVec 16

end Sys2Proof
end

