-- ==== Sys2Proof/Config.lean ====
section
/-! DEFINITION. The parameters of the block (00_scope.md R7, R8): the constants the spec fixes, the
OPEN parameters with the spec's defaults, and the one free value of the model, the arbiter. -/

namespace Sys2Proof

namespace Config

/-- `FREQ_MAX`, the largest clamped frequency (R7). -/
def freqMax : Int := 9397

/-- `VOL_MAX`, the largest clamped volume (R7). -/
def volMax : Int := 63

/-- `NOTE_MAX`, the largest note index (R7). -/
def noteMax : Int := 63

/-- `EXHAUSTED`, the delay value that means "track exhausted" (R7, 10_state.md R40). -/
def exhausted : Word := 0xFFFF

/-- The largest cursor; an advance past it does not wrap (10_state.md R22). -/
def cursorMax : Nat := 0xFFFF

/-- `SHORT_DELAY_BIAS` (R7): a short delay is the first byte less 159. -/
def shortDelayBias : Nat := 159

/-- `LONG_DELAY_BIAS` (R7, R9): a long delay is the VLE value plus 129. -/
def longDelayBias : Nat := 129

/-- Which of several pending events the block carries out first is not fixed (60_exceptions.md R301,
70_reset_and_hazards.md R340). A FREE VALUE: the `k`-th choice, taken modulo the number of pending
events. DESIGN CHOICE, safe: nothing constrains it (log 3). -/
opaque arbiter : Nat → Nat

end Config

/-- The policy `TREVI_RETRIG` (41_note.md R153): does a NOTE restart the tremolo/vibrato cycle. -/
inductive TreviRetrig
  | none
  | reset
deriving DecidableEq, Repr

/-- The OPEN parameters of the block (R8; 10_state.md R20 "parameters of the step relation"). They are
data of the machine that no step changes, so a statement about every state holds for every value. -/
structure Params where
  /-- `NoteTable[0..63]` (20_memory.md R75, R76). -/
  noteTable : Vector Word 64
  /-- `RESERVED_LEN[225..251]`: the operand bytes of a RESERVED first byte (30_encoding.md R118). -/
  reservedLen : Vector (Fin 3) 27
  /-- `DEFAULT_TEMPO`, loaded by reset and `play` (10_state.md R55, 47_host_commands.md R271). -/
  defaultTempo : Byte
  /-- `TREVI_RETRIG` (41_note.md R153). -/
  treviRetrig : TreviRetrig
deriving DecidableEq, Repr

/-- The default Note Table of 20_memory.md R76. PRESUMED (the spec's own default, marked there as
general knowledge), unsafe for a claim that rests on an entry other than 0 and 63 (R77, log 5). -/
def defaultNoteTable : Vector Word 64 :=
  #v[0, 262, 277, 294, 311, 330, 349, 370,
     392, 415, 440, 466, 494, 523, 554, 587,
     622, 659, 698, 740, 784, 831, 880, 932,
     988, 1047, 1109, 1175, 1245, 1319, 1397, 1480,
     1568, 1661, 1760, 1865, 1976, 2093, 2217, 2349,
     2489, 2637, 2794, 2960, 3136, 3322, 3520, 3729,
     3951, 4186, 4435, 4699, 4978, 5274, 5588, 5920,
     6272, 6645, 7040, 7459, 7902, 8372, 8870, 9397]

/-- The default `RESERVED_LEN` of 30_encoding.md R118, `(op - 225) div 9`. DESIGN CHOICE of the spec,
unsafe for a claim that rests on it (log 5). -/
def defaultReservedLen : Vector (Fin 3) 27 :=
  #v[0, 0, 0, 0, 0, 0, 0, 0, 0, 1, 1, 1, 1, 1, 1, 1, 1, 1, 2, 2, 2, 2, 2, 2, 2, 2, 2]

/-- The parameters at the defaults of R8: `DEFAULT_TEMPO` 25, `TREVI_RETRIG` none (log 5). -/
def Params.default : Params where
  noteTable := defaultNoteTable
  reservedLen := defaultReservedLen
  defaultTempo := 25
  treviRetrig := .none

/-- What the spec requires of the parameters: `NT[0] = 0`, `NT[63] = 9397`, every entry in 0..9397
(20_memory.md R76), and a default tempo that is not 0 (10_state.md R49 "It is never 0"). -/
def Params.wf (p : Params) : Bool :=
  p.noteTable[0] == 0 && p.noteTable[63] == 9397 &&
    p.noteTable.toList.all (fun w => w.toNat ≤ 9397) && p.defaultTempo != 0

end Sys2Proof
end

