-- ==== Sys2Proof/Syntax.lean ====
section
/-! DEFINITION. The instructions of the ATM bytecode, one constructor per mnemonic of
spec/opcode_table.json. An operand is held as the byte that encodes it unless said otherwise. -/

namespace Sys2Proof

/-- The instructions (30_encoding.md R101, R108). -/
inductive Instr
  /-- NOTE `n` (41_note.md R151): note on for 1..63, note off for 0. -/
  | note (n : BitVec 6)
  /-- SET_VOLUME `v` (42_setup_fx.md R161). -/
  | setVolume (v : Byte)
  /-- SLIDE_VOL_ON `step` (R162). -/
  | slideVolOn (step : Byte)
  /-- SLIDE_VOL_ADV `step`, `cfg` (R163). -/
  | slideVolAdv (step cfg : Byte)
  /-- SLIDE_VOL_OFF (R164). -/
  | slideVolOff
  /-- SLIDE_FREQ_ON `step` (R165). -/
  | slideFreqOn (step : Byte)
  /-- SLIDE_FREQ_ADV `step`, `cfg` (R166). -/
  | slideFreqAdv (step cfg : Byte)
  /-- SLIDE_FREQ_OFF (R167). -/
  | slideFreqOff
  /-- SET_ARPEGGIO `notes`, `timing` (R168). -/
  | setArpeggio (notes timing : Byte)
  /-- ARPEGGIO_OFF (R169). -/
  | arpeggioOff
  /-- SET_RETRIG `cfg` (R170). -/
  | setRetrig (cfg : Byte)
  /-- RETRIG_OFF (R171). -/
  | retrigOff
  /-- ADD_TRANSPOSE `d` (R172). -/
  | addTranspose (d : Byte)
  /-- SET_TRANSPOSE `d` (R173). -/
  | setTranspose (d : Byte)
  /-- TRANSPOSE_OFF (R174). -/
  | transposeOff
  /-- SET_TREMOLO `depth`, `cfg` (R175). -/
  | setTremolo (depth cfg : Byte)
  /-- TREMOLO_OFF (R176). -/
  | tremoloOff
  /-- SET_VIBRATO `depth`, `cfg` (R177). -/
  | setVibrato (depth cfg : Byte)
  /-- VIBRATO_OFF (R178). -/
  | vibratoOff
  /-- SET_GLISSANDO `cfg` (R179). -/
  | setGlissando (cfg : Byte)
  /-- GLISSANDO_OFF (R180). -/
  | glissandoOff
  /-- SET_NOTE_CUT `timing` (R181). -/
  | setNoteCut (timing : Byte)
  /-- NOTE_CUT_OFF (R182). -/
  | noteCutOff
  /-- SET_TEMPO `t` (R186). -/
  | setTempo (t : Byte)
  /-- RESERVED_FX (R188): an unassigned setup first byte, kept as it stands in the song. -/
  | reservedFx (op : Byte)
  /-- DELAY `d` (43_delay.md R201): `d` ticks, 1..64. -/
  | delay (d : Nat)
  /-- LONG_DELAY (R202): the VLE value `v`, which the song spells in `k` bytes (30_encoding.md R107:
  encodings are not unique). -/
  | longDelay (k : Nat) (v : Word)
  /-- RESERVED (44_reserved_and_data.md R211): the first byte and the operand bytes it skips. -/
  | reserved (op : Byte) (operands : List Byte)
  /-- CALL `t` (45_call_return.md R221). -/
  | call (t : Byte)
  /-- CALL_REPEAT `r`, `t` (R222): the repeat count stands first in the stream. -/
  | callRepeat (r t : Byte)
  /-- RETURN (R226). -/
  | ret
  /-- DATA (44_reserved_and_data.md R213): the length `len`, spelled in `k` VLE bytes; the literal
  bytes that follow are not read and are no part of the instruction's value (log 9). -/
  | data (k : Nat) (len : Word)
deriving DecidableEq, Repr

end Sys2Proof
end

