-- ==== Sys2Proof/WellFormed.lean ====
section
/-! DEFINITION. Which terms of `Instr` an encoding admits (30_encoding.md R101, R106, R108, R110, R118). -/

namespace Sys2Proof

/-- The fewest VLE bytes that spell `v` (30_encoding.md R107). -/
def vleMinBytes (v : Nat) : Nat :=
  if v < 128 then 1 else if v < 16384 then 2 else 3

/-- The unassigned setup first bytes: 86..156, 158, 159 (30_encoding.md R110). -/
def isUnassignedFx (op : Byte) : Bool :=
  86 ≤ op.toNat && op.toNat ≤ 159 && op.toNat != 157

/-- The operand bytes of a RESERVED first byte (30_encoding.md R118); none for any other byte. -/
def reservedOperands (p : Params) (op : Byte) : Nat :=
  if h : 225 ≤ op.toNat ∧ op.toNat < 252 then (p.reservedLen[op.toNat - 225]'(by omega)).val else 0

/-- Every operand is one an encoding of the instruction can hold. -/
def Instr.wf (p : Params) : Instr → Bool
  | .reservedFx op => isUnassignedFx op
  | .delay d => 1 ≤ d && d ≤ 64
  | .longDelay k v => vleMinBytes v.toNat ≤ k
  | .reserved op operands =>
    225 ≤ op.toNat && op.toNat < 252 && operands.length == reservedOperands p op
  | .data k len => vleMinBytes len.toNat ≤ k
  | .note _ | .setVolume _ | .slideVolOn _ | .slideVolAdv _ _ | .slideVolOff | .slideFreqOn _
  | .slideFreqAdv _ _ | .slideFreqOff | .setArpeggio _ _ | .arpeggioOff | .setRetrig _ | .retrigOff
  | .addTranspose _ | .setTranspose _ | .transposeOff | .setTremolo _ _ | .tremoloOff
  | .setVibrato _ _ | .vibratoOff | .setGlissando _ | .glissandoOff | .setNoteCut _ | .noteCutOff
  | .setTempo _ | .call _ | .callRepeat _ _ | .ret => true

end Sys2Proof
end

