-- ==== Sys2Proof/Decode.lean ====
section
/-! DEFINITION. The pure decoder of 30_encoding.md R112, total on any bytes, and the encoder. -/

namespace Sys2Proof

/-- Why a byte stream holds no whole instruction (R112: "It can fail only with `SongBounds` or
`VleRange`"). -/
inductive DecodeError
  /-- The stream ends inside the instruction: the fetch of the next byte raises `SongBounds` (R103). -/
  | truncated
  /-- The VLE value does not fit in 16 bits (R106). -/
  | vleRange
deriving DecidableEq, Repr

/-- What decoding answers: an instruction and the bytes it occupies, or why there is none. -/
inductive Decoded
  | ok (i : Instr) (bytes : Nat)
  | bad (e : DecodeError)
deriving DecidableEq, Repr

/-- What the first byte fixes: the format (R102) and the instruction its operands complete. -/
inductive Form
  | f0 (i : Instr)
  | f1 (mk : Byte → Instr)
  | f2 (mk : Byte → Byte → Instr)
  | fv (mk : Nat → Word → Instr)

/-- The setup class, first bytes 64..159 (R108, R109, R110). -/
def setupForm (op : Byte) : Form :=
  match op.toNat with
  | 0x40 => .f1 .setVolume
  | 0x41 => .f1 .slideVolOn
  | 0x42 => .f2 .slideVolAdv
  | 0x43 => .f0 .slideVolOff
  | 0x44 => .f1 .slideFreqOn
  | 0x45 => .f2 .slideFreqAdv
  | 0x46 => .f0 .slideFreqOff
  | 0x47 => .f2 .setArpeggio
  | 0x48 => .f0 .arpeggioOff
  | 0x49 => .f1 .setRetrig
  | 0x4A => .f0 .retrigOff
  | 0x4B => .f1 .addTranspose
  | 0x4C => .f1 .setTranspose
  | 0x4D => .f0 .transposeOff
  | 0x4E => .f2 .setTremolo
  | 0x4F => .f0 .tremoloOff
  | 0x50 => .f2 .setVibrato
  | 0x51 => .f0 .vibratoOff
  | 0x52 => .f1 .setGlissando
  | 0x53 => .f0 .glissandoOff
  | 0x54 => .f1 .setNoteCut
  | 0x55 => .f0 .noteCutOff
  | 0x9D => .f1 .setTempo
  | _ => .f0 (.reservedFx op)

/-- The RESERVED class, first bytes 225..251: the operand count is the parameter (R118). -/
def reservedForm (p : Params) (op : Byte) : Form :=
  match reservedOperands p op with
  | 0 => .f0 (.reserved op [])
  | 1 => .f1 (fun a => .reserved op [a])
  | _ => .f2 (fun a b => .reserved op [a, b])

/-- The class and format of every first byte (R101, R111). -/
def form (p : Params) (op : Byte) : Form :=
  let n := op.toNat
  if n < 64 then .f0 (.note (op.setWidth 6))
  else if n < 160 then setupForm op
  else if n < 224 then .f0 (.delay (n - Config.shortDelayBias))
  else if n = 224 then .fv .longDelay
  else if n < 252 then reservedForm p op
  else if n = 252 then .f1 .call
  else if n = 253 then .f2 .callRepeat
  else if n = 254 then .f0 .ret
  else .fv .data

/-- What reading a variable-length integer answers: its value and how many bytes it took. -/
inductive VleResult
  | ok (v k : Nat)
  | bad (e : DecodeError)
deriving DecidableEq, Repr

/-- `FetchVLE` (R106): `v` is the value so far, `k` the bytes read so far. -/
def readVle (v k : Nat) : List Byte → VleResult
  | [] => .bad .truncated
  | b :: rest =>
    if v > 0x1FF then .bad .vleRange
    else
      let v' := v * 128 + b.toNat % 128
      if b.toNat < 128 then .ok v' (k + 1) else readVle v' (k + 1) rest

/-- How many bytes an instruction occupies (R102); for DATA the literal bytes count too. -/
def Instr.size : Instr → Nat
  | .note _ | .slideVolOff | .slideFreqOff | .arpeggioOff | .retrigOff | .transposeOff | .tremoloOff
  | .vibratoOff | .glissandoOff | .noteCutOff | .reservedFx _ | .delay _ | .ret => 1
  | .setVolume _ | .slideVolOn _ | .slideFreqOn _ | .setRetrig _ | .addTranspose _ | .setTranspose _
  | .setGlissando _ | .setNoteCut _ | .setTempo _ | .call _ => 2
  | .slideVolAdv _ _ | .slideFreqAdv _ _ | .setArpeggio _ _ | .setTremolo _ _ | .setVibrato _ _
  | .callRepeat _ _ => 3
  | .longDelay k _ => 1 + k
  | .reserved _ operands => 1 + operands.length
  | .data k len => 1 + k + len.toNat

/-- The instruction with its size. -/
def decodedAs (i : Instr) : Decoded := .ok i i.size

/-- The instruction that stands first in a byte stream (R111, R112). -/
def decode (p : Params) : List Byte → Decoded
  | [] => .bad .truncated
  | op :: rest =>
    match form p op, rest with
    | .f0 i, _ => decodedAs i
    | .f1 mk, a :: _ => decodedAs (mk a)
    | .f1 _, [] => .bad .truncated
    | .f2 mk, a :: b :: _ => decodedAs (mk a b)
    | .f2 _, _ => .bad .truncated
    | .fv mk, rest =>
      match readVle 0 0 rest with
      | .ok v k => decodedAs (mk k (BitVec.ofNat 16 v))
      | .bad e => .bad e

/-- The VLE of `v` in `k` bytes: big-endian base 128, the top bit set on all but the last (R106). -/
def encodeVle (v : Nat) : Nat → List Byte
  | 0 => []
  | 1 => [BitVec.ofNat 8 (v % 128)]
  | k + 2 => BitVec.ofNat 8 (128 + v / 128 ^ (k + 1) % 128) :: encodeVle v (k + 1)

/-- The bytes of an instruction that the block reads (R101, R102, R108); the literal bytes of DATA,
which it does not read, are left out (log 9). -/
def encode : Instr → List Byte
  | .note n => [n.setWidth 8]
  | .setVolume v => [0x40, v]
  | .slideVolOn step => [0x41, step]
  | .slideVolAdv step cfg => [0x42, step, cfg]
  | .slideVolOff => [0x43]
  | .slideFreqOn step => [0x44, step]
  | .slideFreqAdv step cfg => [0x45, step, cfg]
  | .slideFreqOff => [0x46]
  | .setArpeggio notes timing => [0x47, notes, timing]
  | .arpeggioOff => [0x48]
  | .setRetrig cfg => [0x49, cfg]
  | .retrigOff => [0x4A]
  | .addTranspose d => [0x4B, d]
  | .setTranspose d => [0x4C, d]
  | .transposeOff => [0x4D]
  | .setTremolo depth cfg => [0x4E, depth, cfg]
  | .tremoloOff => [0x4F]
  | .setVibrato depth cfg => [0x50, depth, cfg]
  | .vibratoOff => [0x51]
  | .setGlissando cfg => [0x52, cfg]
  | .glissandoOff => [0x53]
  | .setNoteCut timing => [0x54, timing]
  | .noteCutOff => [0x55]
  | .setTempo t => [0x9D, t]
  | .reservedFx op => [op]
  | .delay d => [BitVec.ofNat 8 (Config.shortDelayBias + d)]
  | .longDelay k v => 0xE0 :: encodeVle v.toNat k
  | .reserved op operands => op :: operands
  | .call t => [0xFC, t]
  | .callRepeat r t => [0xFD, r, t]
  | .ret => [0xFE]
  | .data k len => 0xFF :: encodeVle len.toNat k

/-- The bytes of an instruction word as spec/opcode_table.json numbers its bits: byte `j` is bits
`8j+7 .. 8j`, every bit from `nbits` on is 0, and three zero bytes follow (the longest operand field
the table leaves out of a row). -/
def tableWordBytes (nbits w : Nat) : List Byte :=
  (List.range ((nbits + 7) / 8 + 3)).map (fun j => BitVec.ofNat 8 ((w % 2 ^ nbits) >>> (8 * j)))

/-- The instruction the decoder reads from a table word, at the default `RESERVED_LEN` the table
itself is written for (log 11). -/
def decodeTableWord (nbits w : Nat) : Option Instr :=
  match decode Params.default (tableWordBytes nbits w) with
  | .ok i _ => some i
  | .bad _ => none

end Sys2Proof
end

