-- ==== Sys2Proof/Machine/State.lean ====
section
/-! DEFINITION. The state of the block as plain data (10_state.md), the reasons a step can stop, and
the state right after reset. -/

namespace Sys2Proof.Machine

/-- The Song Store (20_memory.md R70): the admitted addresses, rising from 0, each with its byte. An
address that is not listed has no value: the read is not admitted (R72). -/
abbrev Memory := List Host.Cell

/-- Causes of a channel fault (60_exceptions.md R291). -/
inductive FaultCause
  | stackOverflow
  | reservedFx
  | songBounds
  | trackRange
  | tempoZero
  | vleRange
  | delayRange
deriving DecidableEq, Repr

/-- A frame of a channel's call stack (10_state.md R30). -/
structure Frame where
  /-- The return cursor. -/
  ret : Word
  /-- The saved `repeatCounter`. -/
  cnt : Byte
  /-- The saved `trackId`. -/
  trk : Byte
deriving DecidableEq, Repr

/-- The register set of one channel (10_state.md R22 to R46). -/
structure Channel where
  /-- The program counter, relative to `trackBase` (R22). -/
  cursor : Word
  /-- The current note index, transposed and clamped (R23). -/
  note : BitVec 6
  /-- The current frequency in note-table units (R24). -/
  frequency : Word
  /-- The current volume (R25). -/
  volume : Byte
  /-- The operand of the last SET_VOLUME (R26). -/
  volSet : Byte
  /-- The id of the currently called track (R27). -/
  trackId : Byte
  /-- How often the current track is still to be restarted (R28). -/
  repeatCounter : Byte
  /-- The number of live frames (R29). -/
  sp : BitVec 3
  /-- The call stack; frame `i` is live iff `i < sp` (R30). -/
  stack : Vector Frame 7
  /-- The signed slide step, the slide's gate (R31). -/
  slideStep : Byte
  /-- Slide period, target and unbounded bit (R32). -/
  slideConfig : Byte
  /-- Ticks since the last slide application (R33). -/
  slideCount : Byte
  /-- Arpeggio offsets, 0xFF for note cut, the processor's gate (R34). -/
  arpNotes : Byte
  /-- Arpeggio threshold, retrigger-on-note and skip-third-phase bits (R35). -/
  arpTiming : Byte
  /-- Which note of the arpeggio sounds (R36). -/
  arpPhase : BitVec 2
  /-- Ticks inside the arpeggio phase (R36). -/
  arpTick : BitVec 5
  /-- Tremolo/vibrato depth, its gate (R37). -/
  treviDepth : Byte
  /-- Tremolo/vibrato period, target and unbounded bit (R38). -/
  treviConfig : Byte
  /-- Ticks inside the tremolo/vibrato phase (R39). -/
  treviTick : BitVec 5
  /-- false (0): the depth is subtracted; true (1): it is added (R39). -/
  treviPhase : Bool
  /-- Ticks before the next instruction fetch; 0xFFFF: track exhausted (R40). -/
  delay : Word
  /-- Glissando period and direction, its gate (R41). -/
  glisConfig : Byte
  /-- Ticks since the last glissando step (R42). -/
  glisCount : Byte
  /-- Retrigger period and note-table index, its gate (R43). -/
  retrigConfig : Byte
  /-- Ticks since the last retrigger (R44). -/
  retrigCount : Byte
  /-- The signed transpose offset (R45). -/
  transpose : Byte
  /-- The cause code of the channel's fault, 0 for none (R46, 60_exceptions.md R291). -/
  fault : BitVec 3
  /-- The cursor of the first byte of the instruction that faulted (R46). -/
  faultCursor : Word
deriving DecidableEq, Repr

/-- A slot of the Oscillator Output (10_state.md R52). -/
structure OscSlot where
  freq : Word
  vol : Byte
deriving DecidableEq, Repr

/-- An event at the block's inputs: the `tick` input or a host command (10_state.md R57). -/
inductive Event
  | tick
  /-- `play`, with the bytes of the song image (47_host_commands.md R271). -/
  | play (image : List Byte)
  | stop
  | playPause
  | mute (n : Fin 4)
  | unmute (n : Fin 4)
deriving DecidableEq, Repr

/-- Whose zeroing of the Oscillator Output is in progress: what follows it differs. -/
inductive Silencing
  /-- `StopActions`, where it is the last action (47_host_commands.md R274). -/
  | stop
  /-- `play`, where the header is read after it (R271). -/
  | play
deriving DecidableEq, Repr

/-- Where the block stands inside the event it is carrying out. Each phase is one micro-step of
40_tick_routine.md R130 to R140 or of 47_host_commands.md R271 and R274, cut so that no step inside an
event writes two Oscillator Output registers (70_reset_and_hazards.md R342; log 1, log 13; `reset` is
log 26). DESIGN CHOICE, safe. -/
inductive Phase
  /-- No event in progress. -/
  | idle
  /-- At the start of `Service(cur)` (R131). -/
  | service
  /-- At the start of `Sequencer(cur)` (R133). -/
  | sequence
  /-- About to fetch and execute one instruction of channel `cur` (R134). -/
  | interpret
  /-- At the `until` of the interpreter loop of channel `cur` (R134). -/
  | loopTest
  /-- About to publish the frequency of channel `cur` (R138). -/
  | publishFreq
  /-- About to publish the volume of channel `cur` (R138). -/
  | publishVol
  /-- At `AutoStopCheck` (R140). -/
  | autoStopCheck
  /-- About to zero `osc[cur].freq` (47_host_commands.md R271, R274). -/
  | silenceFreq (of : Silencing)
  /-- About to zero `osc[cur].vol` (47_host_commands.md R271, R274). -/
  | silenceVol (of : Silencing)
  /-- About to read the header of the installed song and seed the channels (47_host_commands.md R271). -/
  | playSeed
deriving DecidableEq, Repr

/-- The whole machine. The registers of 10_state.md R20, the parameters of the step relation that R20
names, and the model's own fields. -/
structure State where
  /-- The channel register sets `ch[0..3]` (R21). -/
  ch : Vector Channel 4
  /-- Bits 3..0 mute, bits 7..4 active (R47). -/
  mask : Byte
  /-- Are `tick` events accepted (R48). -/
  tickEnable : Bool
  /-- The ticks-per-second operand of the last SET_TEMPO (R49). -/
  tempo : Byte
  /-- The first byte of the installed song (R50). -/
  trackCount : Byte
  /-- The song address of the track data (R51). -/
  trackBase : BitVec 10
  /-- The Oscillator Output `osc[0..3]` (R52). -/
  osc : Vector OscSlot 4
  /-- The image in the Song Store (20_memory.md R70), a parameter in R20's sense. -/
  song : Memory
  /-- The OPEN parameters (R20); no step changes them. -/
  params : Params
  /-- The model's own: the place inside the event in progress (log 1). -/
  phase : Phase
  /-- The model's own: the channel in service, or the slot being zeroed (log 1). -/
  cur : Fin 4
  /-- The model's own: events presented and not yet begun (log 2). -/
  pending : List Event
  /-- The model's own: the `reset` input is asserted (log 4). -/
  resetIn : Bool
  /-- The model's own: arbitration choices made so far (log 3). -/
  choices : Nat
deriving DecidableEq, Repr

/-- Why the machine stops with a fault: never. The faults of 60_exceptions.md are recorded in the
channel's registers and the block goes on (R293), so each is a next state; no rule of the spec stops
the block. A closed inductive without constructors: nobody raises it (log 14). Safe. -/
inductive Fault
deriving DecidableEq, Repr

/-- Why the machine refuses to go on. -/
inductive Refusal
  /-- Raised by an arm of `exec` for an instruction that has no meaning in the model. No arm raises it:
  every instruction has its meaning. Safe. -/
  | notModelled (mnemonic : String)
deriving DecidableEq, Repr

/-- A call-stack frame of zeros. -/
def Frame.zero : Frame := { ret := 0, cnt := 0, trk := 0 }

/-- A channel with every register 0 (10_state.md R55, 47_host_commands.md R271, R274). -/
def Channel.zero : Channel where
  cursor := 0
  note := 0
  frequency := 0
  volume := 0
  volSet := 0
  trackId := 0
  repeatCounter := 0
  sp := 0
  stack := Vector.replicate 7 Frame.zero
  slideStep := 0
  slideConfig := 0
  slideCount := 0
  arpNotes := 0
  arpTiming := 0
  arpPhase := 0
  arpTick := 0
  treviDepth := 0
  treviConfig := 0
  treviTick := 0
  treviPhase := false
  delay := 0
  glisConfig := 0
  glisCount := 0
  retrigConfig := 0
  retrigCount := 0
  transpose := 0
  fault := 0
  faultCursor := 0

/-- The machine right after reset (10_state.md R55, 70_reset_and_hazards.md R330, R331): every register
0 and `tempo` at `DEFAULT_TEMPO`; stopped. The spec gives the Song Store no reset value (R332): DESIGN
CHOICE, nothing listed, unsafe only for a claim about the image before the first `play` (log 6). The
parameters stand at the defaults of R8 (log 5). -/
def State.reset : State where
  ch := Vector.replicate 4 Channel.zero
  mask := 0x00
  tickEnable := false
  tempo := Params.default.defaultTempo
  trackCount := 0
  trackBase := 0
  osc := Vector.replicate 4 { freq := 0, vol := 0 }
  song := []
  params := Params.default
  phase := .idle
  cur := 0
  pending := []
  resetIn := false
  choices := 0

end Sys2Proof.Machine
end

