-- ==== Sys2Proof/Machine/Ops.lean ====
section
/-! DEFINITION. The named operations over the Song Store and the registers, and the one way a channel
takes a fault (60_exceptions.md R292). -/

namespace Sys2Proof.Machine

/-- What a step or an instruction answers. -/
abbrev Result := Host.Outcome State Fault Refusal

/-! ## The Song Store -/

/-- `SongRead8` (20_memory.md R72): the byte at a song-relative address, none where the access is not
admitted. -/
def Memory.read : Memory → Nat → Option Byte
  | [], _ => none
  | (k, b) :: rest, a => if k = a then some b else Memory.read rest a

/-- `SongRead16` (R73): little-endian; either byte may be not admitted. -/
def Memory.read16 (m : Memory) (a : Nat) : Option Word :=
  match Memory.read m a, Memory.read m (a + 1) with
  | some lo, some hi => some (hi ++ lo)
  | _, _ => none

/-- The image whose bytes stand from address `a` on. -/
def Memory.ofBytesFrom : Nat → List Byte → Memory
  | _, [] => []
  | a, b :: rest => (a, b) :: Memory.ofBytesFrom (a + 1) rest

/-- The image of a song given as its bytes from address 0 (R70). -/
def Memory.ofBytes (image : List Byte) : Memory := Memory.ofBytesFrom 0 image

/-- The bytes of the image in address order. -/
def Memory.bytes (m : Memory) : List Byte := m.map (fun cell => cell.2)

/-- `SONG_LEN` (R70). -/
def Memory.songLen (m : Memory) : Nat := m.length

/-- The addresses are exactly `a`, `a + 1`, … in this order. -/
def Memory.wfFrom : Nat → Memory → Bool
  | _, [] => true
  | a, (k, _) :: rest => k == a && Memory.wfFrom (a + 1) rest

/-- The canonical form: the admitted addresses 0 .. SONG_LEN-1, strictly rising, each listed once. -/
def Memory.wf (m : Memory) : Bool := Memory.wfFrom 0 m

/-- The image with the bytes `new` standing from address `a` on, and zeros between its end and `a`.
The block itself never writes the Song Store (R84); this is the load of `State.withFetchWord`. -/
def Memory.overlay (m : Memory) (a : Nat) (new : List Byte) : Memory :=
  Memory.ofBytes (m.bytes.take a ++ List.replicate (a - m.length) 0 ++ new
    ++ m.bytes.drop (a + new.length))

/-! ## Registers -/

/-- The register set of a channel, `ch[c]`. -/
def State.chan (s : State) (c : Fin 4) : Channel := s.ch[c]

/-- The state with the register set of channel `c` replaced. -/
def State.setChan (s : State) (c : Fin 4) (x : Channel) : State := { s with ch := s.ch.set c.val x }

/-- The register set of the channel in service. -/
def State.curChan (s : State) : Channel := s.chan s.cur

/-- The state with the register set of the channel in service replaced. -/
def State.setCur (s : State) (x : Channel) : State := s.setChan s.cur x

/-- The state with `G.tempo` written (42_setup_fx.md R186). -/
def State.setTempo (s : State) (t : Byte) : State := { s with tempo := t }

/-- The state at another place of the event in progress. -/
def State.setPhase (s : State) (p : Phase) : State := { s with phase := p }

/-- An Oscillator Output slot. -/
def State.slot (s : State) (n : Fin 4) : OscSlot := s.osc[n]

/-- `osc[n].freq <- v`. -/
def State.setOscFreq (s : State) (n : Fin 4) (v : Word) : State :=
  { s with osc := s.osc.set n.val { s.slot n with freq := v } }

/-- `osc[n].vol <- v`. -/
def State.setOscVol (s : State) (n : Fin 4) (v : Byte) : State :=
  { s with osc := s.osc.set n.val { s.slot n with vol := v } }

/-- A frame of a channel's stack (10_state.md R30); there is none at 7 or above. -/
def Channel.frame (c : Channel) (i : Nat) : Frame := c.stack[i]?.getD Frame.zero

/-- The channel with frame `i` written. -/
def Channel.setFrame (c : Channel) (i : Nat) (f : Frame) : Channel :=
  { c with stack := c.stack.setIfInBounds i f }

/-- `NT[i]` (20_memory.md R75). -/
def noteFreq (p : Params) (i : BitVec 6) : Word := p.noteTable[i.toNat]'(i.isLt)

/-- The address of the byte a channel's cursor points at, `G.trackBase + cursor` without wrap (R71);
what stands on `songAddr` during a fetch. -/
def State.fetchAddr (s : State) (c : Channel) : Nat := s.trackBase.toNat + c.cursor.toNat

/-! ## Faults -/

/-- The code of a cause, the value of `fault` (60_exceptions.md R291). -/
def faultCode : FaultCause → BitVec 3
  | .stackOverflow => 1
  | .reservedFx => 2
  | .songBounds => 3
  | .trackRange => 4
  | .tempoZero => 5
  | .vleRange => 6
  | .delayRange => 7

/-- A channel that takes a fault at the instruction its cursor stands on. The cursor is still that of
the instruction's first byte, so R292's `cursor <- start` is no change; nothing else is written. -/
def Channel.raise (c : Channel) (cause : FaultCause) : Channel :=
  { c with fault := faultCode cause, faultCursor := c.cursor }

/-- `raise Fault(cause)` in the channel in service (R292): TAKING AN EXCEPTION. Control goes nowhere
and no mode changes (R302); the channel is left faulted. There is no return from it: only `play`,
`stop`, auto-stop and reset clear the registers (`Channel.zero`). -/
def State.raise (s : State) (cause : FaultCause) : State := s.setCur (s.curChan.raise cause)

/-- The cause a failed decode stands for (30_encoding.md R103, R106). -/
def decodeCause : DecodeError → FaultCause
  | .truncated => .songBounds
  | .vleRange => .vleRange

/-! ## Executing an instruction -/

/-- The channel after `n` bytes of its stream (R103, R104). -/
def Channel.advance (c : Channel) (n : Nat) : Channel :=
  { c with cursor := c.cursor + BitVec.ofNat 16 n }

/-- An instruction of `n` bytes with its effect, or the cause for which it is abandoned (R292: the
abandoned instruction writes nothing, so its effect is dropped whole). `body` starts from the state in
which the instruction's bytes have been fetched (R13). A cursor that would pass 0xFFFF raises
`SongBounds` (R103; 44_reserved_and_data.md R213; 60_exceptions.md R296). -/
def runInstr (n : Nat) (body : State → Except FaultCause State) (s : State) : Result :=
  if s.curChan.cursor.toNat + n ≤ Config.cursorMax then
    match body (s.setCur (s.curChan.advance n)) with
    | .ok t => .next t
    | .error cause => .next (s.raise cause)
  else .next (s.raise .songBounds)

/-- An instruction of `n` bytes that only writes registers of its channel. -/
def updateChannel (n : Nat) (f : Channel → Channel) (s : State) : Result :=
  runInstr n (fun t => .ok (t.setCur (f t.curChan))) s

/-- `TrackStart(t)` (20_memory.md R80): the cursor of the first instruction of track `t`. -/
def State.trackStart (s : State) (t : Byte) : Except FaultCause Word :=
  if s.trackCount.toNat ≤ t.toNat then .error .trackRange
  else
    match Memory.read16 s.song (1 + 2 * t.toNat) with
    | some w => .ok w
    | none => .error .songBounds

/-! ## The outside -/

/-- `busy` (10_state.md R57): an event is being carried out. How long it stays 1 is open
(70_reset_and_hazards.md R356): DESIGN CHOICE, the micro-steps of the event after its first (log 25). -/
def State.busy (s : State) : Bool := s.phase != .idle

/-- The environment presents an event (60_exceptions.md R300, R301). -/
def State.present (s : State) (e : Event) : State := { s with pending := s.pending ++ [e] }

/-- The environment asserts the `reset` input. -/
def State.assertReset (s : State) : State := { s with resetIn := true }

/-- The reset action (10_state.md R55, 70_reset_and_hazards.md R331): the reset state, whatever was in
progress; it "overrides both" inputs (60_exceptions.md R300), so pending events are dropped. The
parameters are no registers, the Song Store has no reset value (R332), and the count of free choices
must not start again (log 4). All eight Oscillator Output registers are zeroed in this one step: DESIGN
CHOICE, the spec does not say what a mixer sees during reset (log 26). -/
def State.resetAction (s : State) : State :=
  { State.reset with
    tempo := s.params.defaultTempo
    params := s.params
    song := s.song
    choices := s.choices }

end Sys2Proof.Machine
end

