-- ==== Sys2Proof/Machine/Operands.lean ====
section
/-! DEFINITION. The operand forms: clamping (46_effect_processors.md R242), note indices
(41_note.md R152), and the fields of the configuration bytes (10_state.md R32 to R43). -/

namespace Sys2Proof.Machine

/-- `clamp` (00_scope.md R11). -/
def clamp (v lo hi : Int) : Int := if v < lo then lo else if v > hi then hi else v

/-- `ClampVol` (R242). -/
def clampVol (v : Int) : Byte := BitVec.ofInt 8 (clamp v 0 Config.volMax)

/-- `ClampFreq` (R242). -/
def clampFreq (v : Int) : Word := BitVec.ofInt 16 (clamp v 0 Config.freqMax)

/-- A note index clamped into 0..63 (41_note.md R152). -/
def clampNote (v : Int) : BitVec 6 := BitVec.ofInt 6 (clamp v 0 Config.noteMax)

/-- A volume after a processor: clamped, or wrapped at 8 bits where the unbounded bit is set (R242). -/
def boundVol (unbounded : Bool) (v : Int) : Byte := if unbounded then BitVec.ofInt 8 v else clampVol v

/-- A frequency after a processor: clamped, or wrapped at 16 bits (R242). -/
def boundFreq (unbounded : Bool) (v : Int) : Word :=
  if unbounded then BitVec.ofInt 16 v else clampFreq v

/-- `slideConfig[5:0]`, the period N (R32). -/
def Channel.slidePeriod (c : Channel) : Nat := (c.slideConfig.extractLsb' 0 6).toNat

/-- `slideConfig[6]`: the target is the frequency (R32). -/
def Channel.slideOnFreq (c : Channel) : Bool := c.slideConfig.getLsbD 6

/-- `slideConfig[7]`: unbounded (R32). -/
def Channel.slideUnbounded (c : Channel) : Bool := c.slideConfig.getLsbD 7

/-- `arpTiming[4:0]`, the threshold T (R35). -/
def Channel.arpThreshold (c : Channel) : BitVec 5 := c.arpTiming.extractLsb' 0 5

/-- `arpTiming[5]`: a NOTE resets the phase (R35). -/
def Channel.arpRetrigger (c : Channel) : Bool := c.arpTiming.getLsbD 5

/-- `arpTiming[6]`: skip the third phase (R35). -/
def Channel.arpSkipThird (c : Channel) : Bool := c.arpTiming.getLsbD 6

/-- `arpNotes = 0xFF`: note-cut mode (R34). -/
def Channel.noteCut (c : Channel) : Bool := c.arpNotes == 0xFF

/-- `arpNotes[7:4]`, the second-note offset (R34). -/
def Channel.arpHi (c : Channel) : Nat := (c.arpNotes.extractLsb' 4 4).toNat

/-- `arpNotes[3:0]`, the third-note offset (R34). -/
def Channel.arpLo (c : Channel) : Nat := (c.arpNotes.extractLsb' 0 4).toNat

/-- `treviConfig[4:0]`, the period P (R38). -/
def Channel.treviPeriod (c : Channel) : BitVec 5 := c.treviConfig.extractLsb' 0 5

/-- `treviConfig[6]`: vibrato, the target is the frequency (R38). -/
def Channel.treviOnFreq (c : Channel) : Bool := c.treviConfig.getLsbD 6

/-- `treviConfig[7]`: unbounded (R38). -/
def Channel.treviUnbounded (c : Channel) : Bool := c.treviConfig.getLsbD 7

/-- `glisConfig[6:0]`, the period N (R41). -/
def Channel.glisPeriod (c : Channel) : Nat := (c.glisConfig.extractLsb' 0 7).toNat

/-- `glisConfig[7]`: down (R41). -/
def Channel.glisDown (c : Channel) : Bool := c.glisConfig.getLsbD 7

/-- `retrigConfig[1:0]`, the period N (R43). -/
def Channel.retrigPeriod (c : Channel) : Nat := (c.retrigConfig.extractLsb' 0 2).toNat

/-- `retrigConfig[7:2]`, the note-table index (R43). -/
def Channel.retrigIndex (c : Channel) : BitVec 6 := c.retrigConfig.extractLsb' 2 6

/-- An effect configuration with bit 6 forced to 0: the target is the volume (42_setup_fx.md R163,
R175). -/
def targetVolume (cfg : Byte) : Byte := cfg &&& 0xBF

/-- An effect configuration with bit 6 forced to 1: the target is the frequency (R166, R177). -/
def targetFrequency (cfg : Byte) : Byte := cfg ||| 0x40

end Sys2Proof.Machine
end

