-- ==== Sys2Proof/Machine/Flags.lean ====
section
/-! DEFINITION. The flag-like state of 10_state.md R53: the bits of `G.mask`, and the phases that a
NOTE may reset. No instruction computes a condition code. -/

namespace Sys2Proof.Machine

/-- `G.mask[n]`: channel `n` is muted (R47). -/
def State.muted (s : State) (n : Fin 4) : Bool := s.mask.getLsbD n.val

/-- `G.mask[4+n]`: channel `n` is active (R47). -/
def State.active (s : State) (n : Fin 4) : Bool := s.mask.getLsbD (4 + n.val)

/-- `G.mask[7:4]`, the active nibble (R47). -/
def State.activeNibble (s : State) : BitVec 4 := s.mask.extractLsb' 4 4

/-- A mask with all four active bits set (47_host_commands.md R271). -/
def maskAllActive (m : Byte) : Byte := m ||| 0xF0

/-- A mask with no active bit set (R274). -/
def maskNoneActive (m : Byte) : Byte := m &&& 0x0F

/-- A mask with the mute bit of channel `n` set (R277). -/
def maskMute (m : Byte) (n : Fin 4) : Byte := m ||| (1#8 <<< n.val)

/-- A mask with the mute bit of channel `n` clear (R277). -/
def maskUnmute (m : Byte) (n : Fin 4) : Byte := m &&& ~~~(1#8 <<< n.val)

/-- A NOTE resets the arpeggio's phase and counter where `arpTiming[5]` is set (41_note.md R151). -/
def Channel.noteArpReset (c : Channel) : Channel :=
  if c.arpRetrigger then { c with arpPhase := 0, arpTick := 0 } else c

/-- `NoteTreviPolicy` (41_note.md R153): the OPEN policy `TREVI_RETRIG` decides. -/
def Channel.noteTreviPolicy (p : Params) (c : Channel) : Channel :=
  match p.treviRetrig with
  | .none => c
  | .reset => { c with treviTick := 0, treviPhase := false }

end Sys2Proof.Machine
end

