-- ==== Sys2Proof/Machine/Effects.lean ====
section
/-! DEFINITION. The five per-tick effect processors (46_effect_processors.md). Each reads and writes
nothing while its gate register is 0 (R240). -/

namespace Sys2Proof.Machine

/-- `EveryN` (R241): whether the processor fires, and its counter after. -/
def everyN (k : Byte) (n : Nat) : Bool × Byte :=
  if n ≤ k.toNat + 1 then (true, 0) else (false, BitVec.ofNat 8 (k.toNat + 1))

/-- The volume or the frequency moved by `d`, by the common clamping rule (R242). -/
def Channel.move (c : Channel) (onFreq unbounded : Bool) (d : Int) : Channel :=
  if onFreq then { c with frequency := boundFreq unbounded (c.frequency.toNat + d) }
  else { c with volume := boundVol unbounded (c.volume.toNat + d) }

/-- `Slide(c)` (R243). -/
def Channel.slide (c : Channel) : Channel :=
  if c.slideStep = 0 then c
  else
    let r := everyN c.slideCount c.slidePeriod
    let c' := { c with slideCount := r.2 }
    if r.1 then c'.move c.slideOnFreq c.slideUnbounded c.slideStep.toInt else c'

/-- The phase after phase `p` of an arpeggio or a note cut (R248). -/
def nextArpPhase (p : BitVec 2) (skipThird cut : Bool) : BitVec 2 :=
  if p = 0 then 1 else if p = 1 ∧ skipThird = false ∧ cut = false then 2 else 0

/-- The note index that arpeggio phase `p` sounds, before transpose and clamping (R248). -/
def Channel.arpBase (c : Channel) (p : BitVec 2) : Nat :=
  c.note.toNat + (if 1 ≤ p.toNat then c.arpHi else 0) + (if p = 2 then c.arpLo else 0)

/-- The frequency that arpeggio phase `p` writes; phase 1 of a note cut is silence (R248). -/
def Channel.arpFreq (nt : Params) (c : Channel) (p : BitVec 2) : Word :=
  if c.noteCut ∧ p = 1 then 0
  else noteFreq nt (clampNote (c.arpBase p + c.transpose.toInt))

/-- `ArpCut(c)` (R248). -/
def Channel.arpCut (nt : Params) (c : Channel) : Channel :=
  if c.arpNotes = 0 ∨ c.note = 0 then c
  else if c.arpTick.toNat < c.arpThreshold.toNat then { c with arpTick := c.arpTick + 1 }
  else
    let p := nextArpPhase c.arpPhase c.arpSkipThird c.noteCut
    { c with arpTick := 0, arpPhase := p, frequency := c.arpFreq nt p }

/-- `Trevi(c)` (R253): the depth is applied on every tick; the phase flips after `P + 1` ticks. -/
def Channel.trevi (c : Channel) : Channel :=
  if c.treviDepth = 0 then c
  else
    let d : Int := c.treviDepth.toNat
    let c' := c.move c.treviOnFreq c.treviUnbounded (if c.treviPhase then d else -d)
    if c.treviTick.toNat < c.treviPeriod.toNat then { c' with treviTick := c.treviTick + 1 }
    else { c' with treviTick := 0, treviPhase := !c.treviPhase }

/-- The note one semitone on, clamped to 1..63 (R256). -/
def glissandoNote (n : BitVec 6) (down : Bool) : BitVec 6 :=
  BitVec.ofInt 6 (clamp (if down then (n.toNat : Int) - 1 else n.toNat + 1) 1 Config.noteMax)

/-- `Glissando(c)` (R256): not gated on the note, so a note off sounds again (R257). -/
def Channel.glissando (nt : Params) (c : Channel) : Channel :=
  if c.glisConfig = 0 then c
  else
    let r := everyN c.glisCount c.glisPeriod
    if r.1 then
      let n := glissandoNote c.note c.glisDown
      { c with glisCount := r.2, note := n, frequency := noteFreq nt n }
    else { c with glisCount := r.2 }

/-- `Retrigger(c)` (R259): writes the channel's `frequency`, also on channel 3 (90_conflicts.md C3). -/
def Channel.retrigger (nt : Params) (c : Channel) : Channel :=
  if c.retrigConfig = 0 then c
  else
    let r := everyN c.retrigCount c.retrigPeriod
    if r.1 then { c with retrigCount := r.2, frequency := noteFreq nt c.retrigIndex }
    else { c with retrigCount := r.2 }

/-- `RunEffects(c)` (40_tick_routine.md R132): the fixed order slide, arpeggio/note cut, trevi,
glissando, retrigger. -/
def Channel.runEffects (nt : Params) (c : Channel) : Channel :=
  (((c.slide.arpCut nt).trevi).glissando nt).retrigger nt

end Sys2Proof.Machine
end

