-- ==== Sys2Proof/Machine/Tick.lean ====
section
/-! DEFINITION. The tick routine, one micro-step per phase (40_tick_routine.md R130 to R140). -/

namespace Sys2Proof.Machine

/-- After a channel: the next one in ascending order, or `AutoStopCheck` after channel 3 (R130). -/
def State.nextChannel (s : State) : State :=
  if s.cur = 3 then { s with phase := .autoStopCheck, cur := 0 }
  else { s with phase := .service, cur := s.cur + 1 }

/-- The start of `Service(c)` (R131): an inactive or a faulted channel is left alone, any other runs
its effects. -/
def State.serviceStep (s : State) : State :=
  if s.active s.cur = false ∨ s.curChan.fault ≠ 0 then s.nextChannel
  else (s.setCur (s.curChan.runEffects s.params)).setPhase .sequence

/-- One tick of the delay counter, which never goes below 0 and leaves 0xFFFF alone (R133, R136). -/
def Channel.countDown (c : Channel) : Channel :=
  if c.delay = 0 ∨ c.delay = Config.exhausted then c else { c with delay := c.delay - 1 }

/-- The start of `Sequencer(c)` (R133): wait out the delay, or interpret. -/
def State.sequenceStep (s : State) : State :=
  if s.curChan.delay ≠ 0 then (s.setCur s.curChan.countDown).setPhase .publishFreq
  else s.setPhase .interpret

/-- The `until` of the interpreter loop and what follows it (R133, R134): a fault ends the service of
the channel without publishing (R131); a delay ends the loop and counts this tick. -/
def State.loopTestStep (s : State) : State :=
  if s.curChan.fault ≠ 0 then s.nextChannel
  else if s.curChan.delay ≠ 0 then (s.setCur s.curChan.countDown).setPhase .publishFreq
  else s.setPhase .interpret

/-- `Publish(c)`, the frequency (R138): not while muted, never for channel 3. -/
def State.publishFreqStep (s : State) : State :=
  if s.muted s.cur ∨ s.cur = 3 then s.setPhase .publishVol
  else (s.setOscFreq s.cur s.curChan.frequency).setPhase .publishVol

/-- The volume a channel publishes: half of it on the noise channel (R138). -/
def State.publishedVol (s : State) : Byte :=
  if s.cur = 3 then s.curChan.volume >>> 1 else s.curChan.volume

/-- `Publish(c)`, the volume (R138): not while muted. -/
def State.publishVolStep (s : State) : State :=
  if s.muted s.cur then s.nextChannel else (s.setOscVol s.cur s.publishedVol).nextChannel

/-- `StopActions` (47_host_commands.md R274), but for the Oscillator Output, which the silence phases
zero register by register. -/
def State.stopActions (s : State) : State :=
  { s with
    tickEnable := false
    mask := maskNoneActive s.mask
    ch := Vector.replicate 4 Channel.zero
    phase := .silenceFreq .stop
    cur := 0 }

/-- `AutoStopCheck` (R140), the end of the tick. -/
def State.autoStopStep (s : State) : State :=
  if s.activeNibble = 0 then s.stopActions else { s with phase := .idle, cur := 0 }

/-- `osc[n].freq <- 0` of `play`, `stop` and auto-stop (47_host_commands.md R271, R274). -/
def State.silenceFreqStep (s : State) (of : Silencing) : State :=
  (s.setOscFreq s.cur 0).setPhase (.silenceVol of)

/-- Where the block goes when the last slot is zero: a stop is over, `play` goes on (R271, R274). -/
def Silencing.after : Silencing → Phase
  | .stop => .idle
  | .play => .playSeed

/-- `osc[n].vol <- 0` of `play`, `stop` and auto-stop. -/
def State.silenceVolStep (s : State) (of : Silencing) : State :=
  if s.cur = 3 then { s.setOscVol s.cur 0 with phase := of.after, cur := 0 }
  else { s.setOscVol s.cur 0 with phase := .silenceFreq of, cur := s.cur + 1 }

end Sys2Proof.Machine
end

