-- ==== Sys2Proof/Machine/Commands.lean ====
section
/-! DEFINITION. The host commands (47_host_commands.md) and the beginning of an event. -/

namespace Sys2Proof.Machine

/-- The cursor `play` seeds channel `n` with, `TrackStart(startTrack[n])`, or why it cannot (R271,
R272). `s` already has the song installed and `trackCount` set. -/
def State.seedCursor (s : State) (n : Fin 4) : Except FaultCause Word :=
  match Memory.read s.song (1 + 2 * s.trackCount.toNat + n.val) with
  | none => .error .songBounds
  | some t => s.trackStart t

/-- Channel `n` as `play` leaves it: all zero but the seeded cursor, or faulted at cursor 0 (R271,
R272). -/
def State.seedChannel (s : State) (n : Fin 4) : Channel :=
  match s.seedCursor n with
  | .ok target => { Channel.zero with cursor := target }
  | .error cause => Channel.zero.raise cause

/-- The state with the header of the installed song read; an image without a byte counts no tracks
(R271, R272). -/
def State.readHeader (s : State) : State :=
  let count := (Memory.read s.song 0).getD 0
  { s with trackCount := count, trackBase := BitVec.ofNat 10 (1 + 2 * count.toNat + 4) }

/-- `play(song)` up to the Oscillator Output (R271): the image is installed and every channel register
zeroed. The silence phases zero the Oscillator Output next, then `State.playSeedStep` follows: the order
of R271, as 20_memory.md R85 asks. -/
def State.play (s : State) (image : List Byte) : State :=
  { s with
    song := Memory.ofBytes image
    ch := Vector.replicate 4 Channel.zero
    phase := .silenceFreq .play
    cur := 0 }

/-- `play(song)` after the Oscillator Output (R271, R272): the header is read, the channels are seeded,
the active bits set, the tempo loaded and ticks enabled. The mute bits stay. -/
def State.playSeedStep (s : State) : State :=
  let u := s.readHeader
  { u with
    ch := Vector.ofFn u.seedChannel
    mask := maskAllActive s.mask
    tempo := s.params.defaultTempo
    tickEnable := true
    phase := .idle
    cur := 0 }

/-- `playPause()` (R276). -/
def State.playPause (s : State) : State := { s with tickEnable := !s.tickEnable }

/-- `mute(n)` (R277). -/
def State.mute (s : State) (n : Fin 4) : State := { s with mask := maskMute s.mask n }

/-- `unmute(n)` (R277). -/
def State.unmute (s : State) (n : Fin 4) : State := { s with mask := maskUnmute s.mask n }

/-- A tick begins, or is ignored while ticks are disabled (40_tick_routine.md R130). -/
def State.beginTick (s : State) : State :=
  if s.tickEnable then { s with phase := .service, cur := 0 } else s

/-- The first micro-step of an event (70_reset_and_hazards.md R340). It is the only one of `playPause`,
`mute`, `unmute` and of a tick that is ignored: DESIGN CHOICE, no state of theirs shows `busy` 1
(log 25). -/
def State.startEvent (s : State) : Event → State
  | .tick => s.beginTick
  | .play image => s.play image
  | .stop => s.stopActions
  | .playPause => s.playPause
  | .mute n => s.mute n
  | .unmute n => s.unmute n

/-- Between events: one of the pending events begins; which one, where several are pending, is the
arbiter's free choice (60_exceptions.md R301). With none pending the block does nothing. -/
def State.idleStep (s : State) : State :=
  match s.pending with
  | [] => s
  | [e] => { s with pending := [] }.startEvent e
  | e :: rest =>
    let k := Config.arbiter s.choices % (rest.length + 1)
    { s with pending := (e :: rest).eraseIdx k, choices := s.choices + 1 }.startEvent
      ((e :: rest)[k]?.getD e)

end Sys2Proof.Machine
end

