-- ==== Sys2Proof/Machine/Call.lean ====
section
/-! DEFINITION. CALL, CALL_REPEAT, RETURN and the call stack (45_call_return.md). -/

namespace Sys2Proof.Machine

/-- The channel with its caller's frame pushed and track `t` entered at `target` (R224). -/
def Channel.pushCall (c : Channel) (r t : Byte) (target : Word) : Channel :=
  { c.setFrame c.sp.toNat { ret := c.cursor, cnt := c.repeatCounter, trk := c.trackId } with
    sp := c.sp + 1
    repeatCounter := r
    trackId := t
    cursor := target }

/-- `DoCall(c, r, t)` (R224), entered with the cursor at the return address: `StackOverflow` at depth
7 (R223), then the faults of `TrackStart` (R80). -/
def doCall (r t : Byte) (s : State) : Except FaultCause State :=
  if s.curChan.sp = 7 then .error .stackOverflow
  else
    match s.trackStart t with
    | .error cause => .error cause
    | .ok target => .ok (s.setCur (s.curChan.pushCall r t target))

/-- The channel at the start of its current track again, one repetition fewer (R226, restart). -/
def Channel.restart (c : Channel) (target : Word) : Channel :=
  { c with repeatCounter := c.repeatCounter - 1, cursor := target }

/-- The channel with the top frame popped; the frame itself stays as it is, dead (R226, pop). -/
def Channel.popCall (c : Channel) : Channel :=
  let f := c.frame (c.sp.toNat - 1)
  { c with sp := c.sp - 1, cursor := f.ret, repeatCounter := f.cnt, trackId := f.trk }

/-- RETURN after its fetch (R226): restart, else pop, else the track is exhausted, which is no fault
(R230). -/
def doReturn (s : State) : Except FaultCause State :=
  let c := s.curChan
  if c.repeatCounter ≠ 0 then
    match s.trackStart c.trackId with
    | .error cause => .error cause
    | .ok target => .ok (s.setCur (c.restart target))
  else if c.sp ≠ 0 then .ok (s.setCur c.popCall)
  else .ok (s.setCur { c with delay := Config.exhausted })

/-- CALL `t` (R221): the called track runs once. -/
def execCall (t : Byte) (s : State) : Result := runInstr 2 (doCall 0 t) s

/-- CALL_REPEAT `r`, `t` (R222): the called track runs `r + 1` times. -/
def execCallRepeat (r t : Byte) (s : State) : Result := runInstr 3 (doCall r t) s

/-- RETURN (R226). -/
def execRet (s : State) : Result := runInstr 1 doReturn s

end Sys2Proof.Machine
end

