-- ==== Sys2Proof/Machine/Delay.lean ====
section
/-! DEFINITION. The delay instructions (43_delay.md). -/

namespace Sys2Proof.Machine

/-- DELAY `d` (R201). -/
def execDelay (d : Nat) (s : State) : Result :=
  updateChannel 1 (fun c => { c with delay := BitVec.ofNat 16 d }) s

/-- LONG_DELAY of the VLE value `v` spelled in `k` bytes (R202): `DelayRange` where the result would
be the Exhausted sentinel or not fit in 16 bits (R203). -/
def execLongDelay (k : Nat) (v : Word) (s : State) : Result :=
  runInstr (1 + k)
    (fun t =>
      let d := v.toNat + Config.longDelayBias
      if Config.exhausted.toNat ≤ d then .error .delayRange
      else .ok (t.setCur { t.curChan with delay := BitVec.ofNat 16 d }))
    s

end Sys2Proof.Machine
end

