-- ==== Sys2Proof/Machine/Note.lean ====
section
/-! DEFINITION. The instruction NOTE (41_note.md). -/

namespace Sys2Proof.Machine

/-- The index NOTE `n` resolves: 0 for a note off, which is not transposed; else the transposed index,
clamped (41_note.md R151, R152). -/
def noteIndex (n : BitVec 6) (transpose : Byte) : BitVec 6 :=
  if n = 0 then 0 else clampNote (n.toNat + transpose.toInt)

/-- The registers NOTE `n` writes (R151, R154). -/
def Channel.noteOn (p : Params) (n : BitVec 6) (c : Channel) : Channel :=
  let idx := noteIndex n c.transpose
  Channel.noteTreviPolicy p
    (Channel.noteArpReset { c with note := idx, frequency := noteFreq p idx, volume := c.volSet })

/-- NOTE `n` (R151); the same on all four channels and for every `n` (R156). -/
def execNote (n : BitVec 6) (s : State) : Result := updateChannel 1 (Channel.noteOn s.params n) s

end Sys2Proof.Machine
end

