-- ==== Sys2Proof/Machine/Reserved.lean ====
section
/-! DEFINITION. The instructions that change no register but the cursor (44_reserved_and_data.md). -/

namespace Sys2Proof.Machine

/-- RESERVED (R211): the operand bytes are fetched and discarded; no state change. -/
def execReserved (_op : Byte) (operands : List Byte) (s : State) : Result :=
  updateChannel (1 + operands.length) id s

/-- DATA (R213): the cursor passes the `len` literal bytes, which are not read; a cursor that would
pass 0xFFFF raises `SongBounds`. -/
def execData (k : Nat) (len : Word) (s : State) : Result := updateChannel (1 + k + len.toNat) id s

end Sys2Proof.Machine
end

