-- ==== Sys2Proof/Machine/Setup.lean ====
section
/-! DEFINITION. The setup instructions (42_setup_fx.md). Each writes only the registers its rule names,
no counter and no phase (R183), and is delay-free. -/

namespace Sys2Proof.Machine

/-- SET_VOLUME `v` (R161): not clamped. -/
def execSetVolume (v : Byte) (s : State) : Result :=
  updateChannel 2 (fun c => { c with volume := v, volSet := v }) s

/-- SLIDE_VOL_ON `step` (R162). -/
def execSlideVolOn (step : Byte) (s : State) : Result :=
  updateChannel 2 (fun c => { c with slideStep := step, slideConfig := 0x00 }) s

/-- SLIDE_VOL_ADV `step`, `cfg` (R163). -/
def execSlideVolAdv (step cfg : Byte) (s : State) : Result :=
  updateChannel 3 (fun c => { c with slideStep := step, slideConfig := targetVolume cfg }) s

/-- SLIDE_VOL_OFF (R164): the one slide of the channel stops, whatever its target. -/
def execSlideVolOff (s : State) : Result := updateChannel 1 (fun c => { c with slideStep := 0 }) s

/-- SLIDE_FREQ_ON `step` (R165). -/
def execSlideFreqOn (step : Byte) (s : State) : Result :=
  updateChannel 2 (fun c => { c with slideStep := step, slideConfig := 0x40 }) s

/-- SLIDE_FREQ_ADV `step`, `cfg` (R166). -/
def execSlideFreqAdv (step cfg : Byte) (s : State) : Result :=
  updateChannel 3 (fun c => { c with slideStep := step, slideConfig := targetFrequency cfg }) s

/-- SLIDE_FREQ_OFF (R167). -/
def execSlideFreqOff (s : State) : Result := updateChannel 1 (fun c => { c with slideStep := 0 }) s

/-- SET_ARPEGGIO `notes`, `timing` (R168). -/
def execSetArpeggio (notes timing : Byte) (s : State) : Result :=
  updateChannel 3 (fun c => { c with arpNotes := notes, arpTiming := timing }) s

/-- ARPEGGIO_OFF (R169). -/
def execArpeggioOff (s : State) : Result := updateChannel 1 (fun c => { c with arpNotes := 0 }) s

/-- SET_RETRIG `cfg` (R170). -/
def execSetRetrig (cfg : Byte) (s : State) : Result :=
  updateChannel 2 (fun c => { c with retrigConfig := cfg }) s

/-- RETRIG_OFF (R171). -/
def execRetrigOff (s : State) : Result := updateChannel 1 (fun c => { c with retrigConfig := 0 }) s

/-- ADD_TRANSPOSE `d` (R172): wraps modulo 256. -/
def execAddTranspose (d : Byte) (s : State) : Result :=
  updateChannel 2
    (fun c => { c with transpose := BitVec.ofInt 8 (c.transpose.toInt + d.toInt) }) s

/-- SET_TRANSPOSE `d` (R173). -/
def execSetTranspose (d : Byte) (s : State) : Result :=
  updateChannel 2 (fun c => { c with transpose := d }) s

/-- TRANSPOSE_OFF (R174). -/
def execTransposeOff (s : State) : Result := updateChannel 1 (fun c => { c with transpose := 0 }) s

/-- SET_TREMOLO `depth`, `cfg` (R175). -/
def execSetTremolo (depth cfg : Byte) (s : State) : Result :=
  updateChannel 3 (fun c => { c with treviDepth := depth, treviConfig := targetVolume cfg }) s

/-- TREMOLO_OFF (R176). -/
def execTremoloOff (s : State) : Result := updateChannel 1 (fun c => { c with treviDepth := 0 }) s

/-- SET_VIBRATO `depth`, `cfg` (R177). -/
def execSetVibrato (depth cfg : Byte) (s : State) : Result :=
  updateChannel 3 (fun c => { c with treviDepth := depth, treviConfig := targetFrequency cfg }) s

/-- VIBRATO_OFF (R178). -/
def execVibratoOff (s : State) : Result := updateChannel 1 (fun c => { c with treviDepth := 0 }) s

/-- SET_GLISSANDO `cfg` (R179). -/
def execSetGlissando (cfg : Byte) (s : State) : Result :=
  updateChannel 2 (fun c => { c with glisConfig := cfg }) s

/-- GLISSANDO_OFF (R180). -/
def execGlissandoOff (s : State) : Result := updateChannel 1 (fun c => { c with glisConfig := 0 }) s

/-- SET_NOTE_CUT `timing` (R181). -/
def execSetNoteCut (timing : Byte) (s : State) : Result :=
  updateChannel 2 (fun c => { c with arpNotes := 0xFF, arpTiming := timing }) s

/-- NOTE_CUT_OFF (R182). -/
def execNoteCutOff (s : State) : Result := updateChannel 1 (fun c => { c with arpNotes := 0 }) s

/-- SET_TEMPO `t` (R186): the only instruction that writes a global register; 0 raises `TempoZero`. -/
def execSetTempo (t : Byte) (s : State) : Result :=
  runInstr 2 (fun u => if t = 0 then .error .tempoZero else .ok (u.setTempo t)) s

/-- RESERVED_FX (R188, 30_encoding.md R110): an unassigned sub-opcode always raises `ReservedFx`. -/
def execReservedFx (_op : Byte) (s : State) : Result :=
  runInstr 1 (fun _ => .error .reservedFx) s

end Sys2Proof.Machine
end

