-- ==== Sys2Proof/Machine/Dispatch.lean ====
section
/-! DEFINITION. One arm per instruction (40_tick_routine.md R135, 30_encoding.md R111): each calls the
instruction's meaning. The state's cursor stands on the instruction's first byte. -/

namespace Sys2Proof.Machine

def exec (i : Instr) (s : State) : Host.Outcome State Fault Refusal :=
  match i with
  | .note n => Sys2Proof.Machine.execNote n s
  | .setVolume v => Sys2Proof.Machine.execSetVolume v s
  | .slideVolOn step => Sys2Proof.Machine.execSlideVolOn step s
  | .slideVolAdv step cfg => Sys2Proof.Machine.execSlideVolAdv step cfg s
  | .slideVolOff => Sys2Proof.Machine.execSlideVolOff s
  | .slideFreqOn step => Sys2Proof.Machine.execSlideFreqOn step s
  | .slideFreqAdv step cfg => Sys2Proof.Machine.execSlideFreqAdv step cfg s
  | .slideFreqOff => Sys2Proof.Machine.execSlideFreqOff s
  | .setArpeggio notes timing => Sys2Proof.Machine.execSetArpeggio notes timing s
  | .arpeggioOff => Sys2Proof.Machine.execArpeggioOff s
  | .setRetrig cfg => Sys2Proof.Machine.execSetRetrig cfg s
  | .retrigOff => Sys2Proof.Machine.execRetrigOff s
  | .addTranspose d => Sys2Proof.Machine.execAddTranspose d s
  | .setTranspose d => Sys2Proof.Machine.execSetTranspose d s
  | .transposeOff => Sys2Proof.Machine.execTransposeOff s
  | .setTremolo depth cfg => Sys2Proof.Machine.execSetTremolo depth cfg s
  | .tremoloOff => Sys2Proof.Machine.execTremoloOff s
  | .setVibrato depth cfg => Sys2Proof.Machine.execSetVibrato depth cfg s
  | .vibratoOff => Sys2Proof.Machine.execVibratoOff s
  | .setGlissando cfg => Sys2Proof.Machine.execSetGlissando cfg s
  | .glissandoOff => Sys2Proof.Machine.execGlissandoOff s
  | .setNoteCut timing => Sys2Proof.Machine.execSetNoteCut timing s
  | .noteCutOff => Sys2Proof.Machine.execNoteCutOff s
  | .setTempo t => Sys2Proof.Machine.execSetTempo t s
  | .reservedFx op => Sys2Proof.Machine.execReservedFx op s
  | .delay d => Sys2Proof.Machine.execDelay d s
  | .longDelay k v => Sys2Proof.Machine.execLongDelay k v s
  | .reserved op operands => Sys2Proof.Machine.execReserved op operands s
  | .call t => Sys2Proof.Machine.execCall t s
  | .callRepeat r t => Sys2Proof.Machine.execCallRepeat r t s
  | .ret => Sys2Proof.Machine.execRet s
  | .data k len => Sys2Proof.Machine.execData k len s

end Sys2Proof.Machine
end

