-- ==== Sys2Proof/Machine/Fetch.lean ====
section
/-! DEFINITION. Fetching the bytes of an instruction (30_encoding.md R103). -/

namespace Sys2Proof.Machine

/-- At most `n` bytes from address `a` on, up to the first access that is not admitted. -/
def Memory.stream (m : Memory) : Nat → Nat → List Byte
  | _, 0 => []
  | a, n + 1 =>
    match Memory.read m a with
    | none => []
    | some b => b :: Memory.stream m (a + 1) n

/-- The bytes that `Fetch8` can deliver to the channel in service: those from its cursor on, none at
cursor 0xFFFF or beyond, none outside the image (R71, R103). -/
def State.instrBytes (s : State) : List Byte :=
  Memory.stream s.song (s.fetchAddr s.curChan) (Config.cursorMax - s.curChan.cursor.toNat)

/-- The instruction at the cursor of the channel in service. -/
def State.fetch (s : State) : Decoded := decode s.params s.instrBytes

/-- `s` with the bytes `bs` standing where the channel in service fetches its next instruction, and the
block about to fetch it: in the interpret phase, with no reset asserted. A cursor too high to hold the
bytes is moved to 0. -/
def State.withFetchBytes (s : State) (bs : List Byte) : State :=
  let c := s.curChan
  let c' := if c.cursor.toNat + bs.length ≤ Config.cursorMax then c else { c with cursor := 0 }
  { s.setCur c' with
    song := Memory.overlay s.song (s.fetchAddr c') bs
    phase := .interpret
    resetIn := false }

end Sys2Proof.Machine
end

