-- ==== Sys2Proof/Machine/Step.lean ====
section
/-! DEFINITION. One step of the machine: one micro-step of the event in progress, or the beginning of
the next event (log 1). -/

namespace Sys2Proof.Machine

/-- A step that has taken one turn of the interpreter loop goes on to the loop's test (R134). -/
def toLoopTest : Result → Result
  | .next s => .next (s.setPhase .loopTest)
  | .fault r => .fault r
  | .refused r => .refused r

/-- One turn of the interpreter loop (40_tick_routine.md R134, R135): fetch and execute one
instruction; a fetch that fails takes its fault. -/
def interpretStep (s : State) : Result :=
  match s.fetch with
  | .ok i _ => toLoopTest (exec i s)
  | .bad e => toLoopTest (.next (s.raise (decodeCause e)))

/-- One step. `reset` overrides everything (60_exceptions.md R300, 70_reset_and_hazards.md R331). -/
def step (s : State) : Host.Outcome State Fault Refusal :=
  if s.resetIn then .next s.resetAction
  else
    match s.phase with
    | .idle => .next s.idleStep
    | .service => .next s.serviceStep
    | .sequence => .next s.sequenceStep
    | .interpret => interpretStep s
    | .loopTest => .next s.loopTestStep
    | .publishFreq => .next s.publishFreqStep
    | .publishVol => .next s.publishVolStep
    | .autoStopCheck => .next s.autoStopStep
    | .silenceFreq of => .next (s.silenceFreqStep of)
    | .silenceVol of => .next (s.silenceVolStep of)
    | .playSeed => .next s.playSeedStep

/-- `s` with the instruction of a table word (spec/opcode_table.json's bit numbers) where the next step
fetches it. It stands for the host's `play` and the tick that lead there (log 12). -/
def State.withFetchWord (s : State) (nbits w : Nat) : State :=
  s.withFetchBytes (tableWordBytes nbits w)

end Sys2Proof.Machine
end

