-- ==== Sys2Proof/Safety.lean ====
section
/-! DEFINITION. The terms the claims use: runs of several steps, run states, frames, and the invariants
of the block. -/

namespace Sys2Proof.Machine

/-- `n` steps, stopping at the first fault or refusal. -/
def stepN : Nat → State → Result
  | 0, s => .next s
  | n + 1, s =>
    match step s with
    | .next t => stepN n t
    | .fault r => .fault r
    | .refused r => .refused r

/-- What an instruction leaves alone whatever it does to the register set of the channel in service:
the other channels, the globals, the Oscillator Output, every byte of the Song Store, and the fields
that are no registers (47_host_commands.md R279). -/
structure SameOutside (s t : State) : Prop where
  chan : ∀ c, c ≠ s.cur → t.chan c = s.chan c
  mask : t.mask = s.mask
  tickEnable : t.tickEnable = s.tickEnable
  tempo : t.tempo = s.tempo
  trackCount : t.trackCount = s.trackCount
  trackBase : t.trackBase = s.trackBase
  slot : ∀ n, t.slot n = s.slot n
  read : ∀ a, Memory.read t.song a = Memory.read s.song a
  song : t.song = s.song
  params : t.params = s.params
  phase : t.phase = s.phase
  cur : t.cur = s.cur
  pending : t.pending = s.pending
  resetIn : t.resetIn = s.resetIn
  choices : t.choices = s.choices

/-- `t` is `s` but for the register set of the channel in service, which is `c` in `t`. -/
def OnlyCur (s t : State) (c : Channel) : Prop := SameOutside s t ∧ t.curChan = c

/-- `t` is `s` with a fault taken by the channel in service at its own cursor (60_exceptions.md R292):
`fault` and `faultCursor` are written and nothing else. -/
def TakesFault (s t : State) (cause : FaultCause) : Prop :=
  OnlyCur s t { s.curChan with fault := faultCode cause, faultCursor := s.curChan.cursor }

/-- In `t` the channel in service stands in its call as in `s`: the same depth, frames, repeat counter
and track id, over the same song. Every other register may differ (45_call_return.md R229). -/
structure SameCall (s t : State) : Prop where
  sp : t.curChan.sp = s.curChan.sp
  stack : t.curChan.stack = s.curChan.stack
  repeatCounter : t.curChan.repeatCounter = s.curChan.repeatCounter
  trackId : t.curChan.trackId = s.curChan.trackId
  song : t.song = s.song
  trackCount : t.trackCount = s.trackCount

/-- The bytes `bs` stand in the image from address `a` on. -/
def HoldsAt (m : Memory) (a : Nat) (bs : List Byte) : Prop :=
  ∀ j, (h : j < bs.length) → Memory.read m (a + j) = some bs[j]

/-- The whole rule of an instruction that only writes registers of its own channel, in the template of
00_scope.md R13. Encoding: `bytes` is what it is encoded as, whatever follows. Faults: with an operand
byte missing the fetch raises `SongBounds`, and so does a cursor that would pass 0xFFFF (30_encoding.md
R103). Pseudocode: the channel becomes `upd` of itself with the cursor past the instruction (R104), and
nothing else changes. -/
def InstrRule (i : Instr) (bytes : List Byte) (upd : Channel → Channel) : Prop :=
  encode i = bytes ∧
  (∀ p rest, decode p (bytes ++ rest) = .ok i bytes.length) ∧
  (∀ p n, n < bytes.length → decode p (bytes.take n) = .bad .truncated) ∧
  (∀ s : State, s.curChan.cursor.toNat + bytes.length ≤ 0xFFFF →
    ∃ t, exec i s = .next t ∧
      OnlyCur s t
        { upd s.curChan with cursor := s.curChan.cursor + BitVec.ofNat 16 bytes.length }) ∧
  (∀ s : State, 0xFFFF < s.curChan.cursor.toNat + bytes.length →
    ∃ t, exec i s = .next t ∧ TakesFault s t .songBounds)

/-- The run states of the block (60_exceptions.md R314), read off the active nibble and `tickEnable`.
Stopped: no channel active, ticks disabled, all channel state zero. -/
def State.isStopped (s : State) : Prop :=
  s.activeNibble = 0 ∧ s.tickEnable = false ∧ ∀ c, s.chan c = Channel.zero

/-- The fourth combination of R314, which is not the stopped state: no channel active, ticks enabled.
`playPause` in the stopped state reaches it, and it lasts until the next tick (47_host_commands.md
R276). -/
def State.isTickingStopped (s : State) : Prop := s.activeNibble = 0 ∧ s.tickEnable = true

/-- Playing (R314). -/
def State.isPlaying (s : State) : Prop := s.activeNibble = 0xF ∧ s.tickEnable = true

/-- Paused (R314). -/
def State.isPaused (s : State) : Prop := s.activeNibble = 0xF ∧ s.tickEnable = false

/-- The track id names a track whose offset-table entry can be read (45_call_return.md R228). -/
def State.trackReadable (s : State) (t : Byte) : Prop := ∃ w, s.trackStart t = .ok w

/-- No channel has faulted: "a claim about a song takes 'no channel faults' as something to prove"
(60_exceptions.md R293). -/
def State.noFault (s : State) : Prop := ∀ c, (s.chan c).fault = 0

/-- The phases in which the block works on a channel that is active and not faulted. -/
def Phase.onLiveChannel : Phase → Bool
  | .sequence | .interpret | .publishFreq | .publishVol => true
  | .idle | .service | .loopTest | .autoStopCheck | .silenceFreq _ | .silenceVol _ | .playSeed => false

/-- The phases inside the service of one channel, after its gate (40_tick_routine.md R131). -/
def Phase.inService : Phase → Bool
  | .sequence | .interpret | .loopTest | .publishFreq | .publishVol => true
  | .idle | .service | .autoStopCheck | .silenceFreq _ | .silenceVol _ | .playSeed => false

/-- The image is in canonical form (20_memory.md R70). -/
def SongInv (s : State) : Prop := Memory.wf s.song = true

/-- The ranges the effect counters hold in operation, and the arpeggio phase that never occurs
(10_state.md R33, R36, R42, R44). -/
def CountersInv (s : State) : Prop :=
  ∀ c, (s.chan c).slideCount.toNat ≤ 63 ∧ (s.chan c).glisCount.toNat ≤ 127 ∧
    (s.chan c).retrigCount.toNat ≤ 3 ∧ (s.chan c).arpPhase ≠ 3

/-- A faulted channel stands at the instruction that faulted (60_exceptions.md R292, 47_host_commands.md
R272), and the block never works on a faulted channel (R293). -/
def FaultInv (s : State) : Prop :=
  (∀ c, (s.chan c).fault ≠ 0 → (s.chan c).cursor = (s.chan c).faultCursor) ∧
    (s.phase.onLiveChannel = true → s.curChan.fault = 0)

/-- The call-stack discipline of one channel (45_call_return.md R228). -/
def ChannelCallInv (s : State) (c : Channel) : Prop :=
  (c.sp = 0 → c.repeatCounter = 0 ∧ c.trackId = 0) ∧
  (c.sp ≠ 0 → s.trackReadable c.trackId) ∧
  (∀ i, i < c.sp.toNat → s.trackReadable (c.frame i).trk) ∧
  (c.sp ≠ 0 → (c.frame 0).cnt = 0 ∧ (c.frame 0).trk = 0)

/-- The call-stack discipline of the block (R228), over an image in canonical form. -/
def CallInv (s : State) : Prop := SongInv s ∧ ∀ c, ChannelCallInv s (s.chan c)

/-- The active bits are set and cleared together; in the stopped state every channel register is 0; the
block is inside the service of a channel only while the channels are active; between events the model's
channel index rests at 0 (10_state.md R47, 60_exceptions.md R314). -/
def RunStateInv (s : State) : Prop :=
  (s.activeNibble = 0 ∨ s.activeNibble = 0xF) ∧
  (s.activeNibble = 0 → ∀ c, s.chan c = Channel.zero) ∧
  (s.phase.inService = true → s.activeNibble = 0xF) ∧
  (s.phase = .idle → s.cur = 0)

/-- The image in canonical form, and the value ranges of the globals: parameters as the spec requires,
`tempo` never 0 (10_state.md R49), `trackBase` as `trackCount` fixes it once a song is installed (R51),
`osc[3].freq` always 0 (R52). -/
def GlobalsInv (s : State) : Prop :=
  SongInv s ∧ s.params.wf = true ∧ s.tempo ≠ 0 ∧
  ((s.trackBase = 0 ∧ s.trackCount = 0) ∨ s.trackBase.toNat = 5 + 2 * s.trackCount.toNat) ∧
  (s.slot 3).freq = 0

/-- Two states that differ at most in the mute bits and the Oscillator Output (47_host_commands.md
R278). -/
structure SameButMute (s t : State) : Prop where
  ch : t.ch = s.ch
  active : t.activeNibble = s.activeNibble
  tickEnable : t.tickEnable = s.tickEnable
  tempo : t.tempo = s.tempo
  trackCount : t.trackCount = s.trackCount
  trackBase : t.trackBase = s.trackBase
  song : t.song = s.song
  params : t.params = s.params
  phase : t.phase = s.phase
  cur : t.cur = s.cur
  pending : t.pending = s.pending
  resetIn : t.resetIn = s.resetIn
  choices : t.choices = s.choices

end Sys2Proof.Machine
end

