-- ==== Sys2Proof/Certificates/Slice0/Obligations.lean ====
section
/-! DEFINITION. The statements for the provers, made from the numbered rules of spec/. A rule that the
spec marks as its own decision is cited as the rule it is; its docstring names the decision D<n> of
92_eei_decisions.md. -/

open Sys2Proof Sys2Proof.Machine

/-! ## Encoding -/

/-- Decoding the bytes of a well-formed instruction gives it back, whatever follows and whatever the OPEN
`RESERVED_LEN` is (30_encoding.md R111, R112). -/
def Obligations.DecodeOfEncodeIsTheInstruction : Prop :=
  ∀ (p : Params) (i : Instr) (rest : List Byte), i.wf p = true →
    decode p (encode i ++ rest) = .ok i i.size

/-- What decodes is well formed, is reported with its size, and stands in the stream as its encoding
(R102, R111). -/
def Obligations.DecodedInstructionReencodes : Prop :=
  ∀ (p : Params) (bytes : List Byte) (i : Instr) (n : Nat), decode p bytes = .ok i n →
    i.wf p = true ∧ n = i.size ∧ ∃ rest, bytes = encode i ++ rest

/-- A stream that ends inside an instruction decodes to nothing but `truncated` (R103). -/
def Obligations.ProperPrefixIsTruncated : Prop :=
  ∀ (p : Params) (i : Instr) (n : Nat), i.wf p = true → n < (encode i).length →
    decode p ((encode i).take n) = .bad .truncated

/-- `FetchVLE` (R106): bytes with the top bit set, then one without it; the value is the base-128 number
of their low seven bits, big-endian, and one that does not fit in 16 bits is refused. Where the stream
ends before a byte without the top bit, the fetch that fails is the cause, unless a byte before it was
already one too many. -/
def Obligations.VleIsBigEndianBase128 : Prop :=
  (∀ (lead : List Byte) (last : Byte) (rest : List Byte),
    (∀ b ∈ lead, 128 ≤ b.toNat) → last.toNat < 128 →
    readVle 0 0 (lead ++ last :: rest) =
      (let v := (lead ++ [last]).foldl (fun v b => v * 128 + b.toNat % 128) 0
       if v < 65536 then .ok v (lead.length + 1) else .bad .vleRange)) ∧
  ∀ lead : List Byte, (∀ b ∈ lead, 128 ≤ b.toNat) →
    readVle 0 0 lead =
      if lead.dropLast.foldl (fun v b => v * 128 + b.toNat % 128) 0 < 512 then .bad .truncated
      else .bad .vleRange

/-- The words of the spec's own examples decode as the spec says (41_note.md R151, 42_setup_fx.md R163,
43_delay.md R201, R202, 44_reserved_and_data.md R211, R213, 45_call_return.md R221, R222, R226). The
RESERVED example holds for the default `RESERVED_LEN`. -/
def Obligations.SpecExampleWordsDecode : Prop :=
  decode Params.default [0x0C] = .ok (.note 12) 1 ∧
  decode Params.default [0x42, 0xFE, 0x01] = .ok (.slideVolAdv 0xFE 0x01) 3 ∧
  decode Params.default [0xA3] = .ok (.delay 4) 1 ∧
  decode Params.default [0xE0, 0x81, 0x2B] = .ok (.longDelay 2 171) 3 ∧
  decode Params.default [0xEA, 0x55] = .ok (.reserved 0xEA [0x55]) 2 ∧
  decode Params.default [0xFF, 0x03, 0xDE, 0xAD, 0x42, 0xA0] = .ok (.data 1 3) 5 ∧
  decode Params.default [0xFC, 0x02] = .ok (.call 2) 2 ∧
  decode Params.default [0xFD, 0x02, 0x01] = .ok (.callRepeat 2 1) 3 ∧
  decode Params.default [0xFE] = .ok .ret 1 ∧
  decode Params.default [0x9F] = .ok (.reservedFx 0x9F) 1

/-! ## Fetching, and what a step does -/

/-- A step in the interpret phase runs the instruction the decoder reads at the cursor, and then stands
at the interpreter loop's test (40_tick_routine.md R134, R135). The loop test as a step of its own is
the model's choice (log 1). -/
def Obligations.StepRunsTheDecodedInstruction : Prop :=
  ∀ (s t : State) (i : Instr) (n : Nat), s.resetIn = false → s.phase = .interpret →
    s.fetch = .ok i n → exec i s = .next t → step s = .next { t with phase := .loopTest }

/-- The same from the image: where the bytes of a well-formed instruction stand at
`G.trackBase + cursor` and none of them is at cursor 0xFFFF, the step runs it (20_memory.md R71,
30_encoding.md R103, R111). -/
def Obligations.StepRunsTheBytesAtTheCursor : Prop :=
  ∀ (s t : State) (i : Instr), s.resetIn = false → s.phase = .interpret → i.wf s.params = true →
    HoldsAt s.song (s.trackBase.toNat + s.curChan.cursor.toNat) (encode i) →
    s.curChan.cursor.toNat + (encode i).length ≤ 0xFFFF →
    exec i s = .next t → step s = .next { t with phase := .loopTest }

/-- A fetch that fails takes its fault at the instruction's first byte and writes nothing else
(20_memory.md R72, 30_encoding.md R103, R106, 60_exceptions.md R291, R292, R296): `SongBounds` where the
first byte or any later byte of the instruction is outside the image or at cursor 0xFFFF, which is what
the decoder reports as truncated; `VleRange` where the decoder reports that. The loop test as a step of
its own is the model's choice (log 1). -/
def Obligations.FetchOutsideTheImageFaults : Prop :=
  ∀ s : State, s.resetIn = false → s.phase = .interpret →
    ((Memory.read s.song (s.trackBase.toNat + s.curChan.cursor.toNat) = none ∨
        s.curChan.cursor = 0xFFFF) →
      ∃ t, TakesFault s t .songBounds ∧ step s = .next { t with phase := .loopTest }) ∧
    (∀ (i : Instr) (n : Nat), i.wf s.params = true → n < (encode i).length →
      HoldsAt s.song (s.trackBase.toNat + s.curChan.cursor.toNat) ((encode i).take n) →
      (Memory.read s.song (s.trackBase.toNat + s.curChan.cursor.toNat + n) = none ∨
        0xFFFF ≤ s.curChan.cursor.toNat + n) →
      ∃ t, TakesFault s t .songBounds ∧ step s = .next { t with phase := .loopTest }) ∧
    (s.fetch = .bad .truncated →
      ∃ t, TakesFault s t .songBounds ∧ step s = .next { t with phase := .loopTest }) ∧
    (s.fetch = .bad .vleRange →
      ∃ t, TakesFault s t .vleRange ∧ step s = .next { t with phase := .loopTest })

/-- Every step answers a next state: no instruction and no event stops the machine (30_encoding.md R111,
60_exceptions.md R290). -/
def Obligations.EveryStepAnswersANextState : Prop := ∀ s : State, ∃ t, step s = .next t

/-! ## What every instruction leaves alone -/

/-- The bytecode writes only the registers of the channel that executes it and `G.tempo`
(47_host_commands.md R279, 10_state.md R21): nothing else changes, no byte of the image, and `G.tempo`
only by SET_TEMPO. -/
def Obligations.InstructionsStayInTheirChannel : Prop :=
  ∀ (i : Instr) (s t : State), exec i s = .next t →
    SameOutside s { t with tempo := s.tempo } ∧
      (t.tempo ≠ s.tempo → i = .setTempo t.tempo ∧ t.tempo ≠ 0)

/-- What an instruction does to its channel and to `G.tempo` depends on that channel and on what the
channels share: the song, its track count and the parameters (60_exceptions.md R312). -/
def Obligations.InstructionsReadOnlyTheirChannel : Prop :=
  ∀ (i : Instr) (s u s' u' : State), s.curChan = u.curChan → s.song = u.song →
    s.trackCount = u.trackCount → s.params = u.params → s.tempo = u.tempo →
    exec i s = .next s' → exec i u = .next u' → s'.curChan = u'.curChan ∧ s'.tempo = u'.tempo

/-- Only DELAY, LONG_DELAY and RETURN write `delay` (40_tick_routine.md R134, 43_delay.md R200). -/
def Obligations.OnlyDelaysAndReturnWriteDelay : Prop :=
  ∀ (i : Instr) (s t : State), exec i s = .next t → t.curChan.delay ≠ s.curChan.delay →
    (∃ d, i = .delay d) ∨ (∃ k v, i = .longDelay k v) ∨ i = .ret

/-- A fault is precise: an instruction that leaves its channel faulted has changed nothing but `fault`
and `faultCursor`, and the cursor stands on its first byte (60_exceptions.md R292, R294; decision D30). -/
def Obligations.InstructionFaultsArePrecise : Prop :=
  ∀ (i : Instr) (s t : State), s.curChan.fault = 0 → exec i s = .next t → t.curChan.fault ≠ 0 →
    ∃ cause, TakesFault s t cause

/-- An instruction whose bytes would take the cursor past 0xFFFF takes `SongBounds` and has no other
effect; DATA counts its literal bytes (10_state.md R22, 60_exceptions.md R296 (b), (c)). -/
def Obligations.CursorNeverWraps : Prop :=
  ∀ (i : Instr) (s : State), 0xFFFF < s.curChan.cursor.toNat + i.size →
    ∃ t, exec i s = .next t ∧ TakesFault s t .songBounds

/-! ## NOTE -/

/-- NOTE (41_note.md R150, R151, R152, R154, R155; decisions D12, D16, D18, D19): the first byte is the
index; a note off is index 0; a note on is the transposed index clamped into 0..63; the frequency is
the table's, the volume the last set one; the arpeggio's phase and counter are reset where
`arpTiming[5]` is set, the tremolo's where the OPEN policy says so; nothing else changes. -/
def Obligations.NoteResolvesThroughTheNoteTable : Prop :=
  (∀ (p : Params) (n : BitVec 6) (op : Byte) (rest : List Byte), op.toNat = n.toNat →
    encode (.note n) = [op] ∧ decode p (op :: rest) = .ok (.note n) 1) ∧
  ∀ (n : BitVec 6) (s : State), s.curChan.cursor.toNat + 1 ≤ 0xFFFF →
    ∃ (t : State) (idx : BitVec 6), exec (.note n) s = .next t ∧
      (n = 0 → idx = 0) ∧
      (n ≠ 0 → (idx.toNat : Int) = max 0 (min 63 (n.toNat + s.curChan.transpose.toInt))) ∧
      OnlyCur s t
        { s.curChan with
          cursor := s.curChan.cursor + 1
          note := idx
          frequency := s.params.noteTable.toList.getD idx.toNat 0
          volume := s.curChan.volSet
          arpPhase := if s.curChan.arpTiming.getLsbD 5 then 0 else s.curChan.arpPhase
          arpTick := if s.curChan.arpTiming.getLsbD 5 then 0 else s.curChan.arpTick
          treviTick := if s.params.treviRetrig = .reset then 0 else s.curChan.treviTick
          treviPhase := if s.params.treviRetrig = .reset then false else s.curChan.treviPhase }

/-! ## Setup instructions -/

/-- SET_VOLUME, unclamped into both registers, and the four slide set-ups, whose opcode, not their
operand, fixes the target bit (42_setup_fx.md R161, R162, R163, R165, R166; decisions D7, D11, D18,
D36). -/
def Obligations.VolumeAndSlideSetupsLoadTheirRegisters : Prop :=
  ∀ v step cfg : Byte,
    InstrRule (.setVolume v) [0x40, v] (fun c => { c with volume := v, volSet := v }) ∧
    InstrRule (.slideVolOn step) [0x41, step]
      (fun c => { c with slideStep := step, slideConfig := 0x00 }) ∧
    InstrRule (.slideVolAdv step cfg) [0x42, step, cfg]
      (fun c => { c with slideStep := step, slideConfig := cfg &&& 0xBF }) ∧
    InstrRule (.slideFreqOn step) [0x44, step]
      (fun c => { c with slideStep := step, slideConfig := 0x40 }) ∧
    InstrRule (.slideFreqAdv step cfg) [0x45, step, cfg]
      (fun c => { c with slideStep := step, slideConfig := cfg ||| 0x40 })

/-- The set-ups of arpeggio and note cut (shared registers), retrigger, glissando, tremolo and vibrato
(shared registers, the opcode fixes the target bit), and transpose, whose sum wraps modulo 256 (R168,
R170, R172, R173, R175, R177, R179, R181; decisions D7, D12 to D15, D17). -/
def Obligations.EffectSetupsLoadTheirRegisters : Prop :=
  ∀ a b : Byte,
    InstrRule (.setArpeggio a b) [0x47, a, b] (fun c => { c with arpNotes := a, arpTiming := b }) ∧
    InstrRule (.setNoteCut a) [0x54, a] (fun c => { c with arpNotes := 0xFF, arpTiming := a }) ∧
    InstrRule (.setRetrig a) [0x49, a] (fun c => { c with retrigConfig := a }) ∧
    InstrRule (.setGlissando a) [0x52, a] (fun c => { c with glisConfig := a }) ∧
    InstrRule (.setTranspose a) [0x4C, a] (fun c => { c with transpose := a }) ∧
    InstrRule (.addTranspose a) [0x4B, a] (fun c => { c with transpose := c.transpose + a }) ∧
    InstrRule (.setTremolo a b) [0x4E, a, b]
      (fun c => { c with treviDepth := a, treviConfig := b &&& 0xBF }) ∧
    InstrRule (.setVibrato a b) [0x50, a, b]
      (fun c => { c with treviDepth := a, treviConfig := b ||| 0x40 })

/-- The nine instructions that switch an effect off clear its gate register and nothing else (R164, R167,
R169, R171, R174, R176, R178, R180, R182; decision D7). -/
def Obligations.OffInstructionsClearTheGate : Prop :=
  InstrRule .slideVolOff [0x43] (fun c => { c with slideStep := 0 }) ∧
  InstrRule .slideFreqOff [0x46] (fun c => { c with slideStep := 0 }) ∧
  InstrRule .arpeggioOff [0x48] (fun c => { c with arpNotes := 0 }) ∧
  InstrRule .retrigOff [0x4A] (fun c => { c with retrigConfig := 0 }) ∧
  InstrRule .transposeOff [0x4D] (fun c => { c with transpose := 0 }) ∧
  InstrRule .tremoloOff [0x4F] (fun c => { c with treviDepth := 0 }) ∧
  InstrRule .vibratoOff [0x51] (fun c => { c with treviDepth := 0 }) ∧
  InstrRule .glissandoOff [0x53] (fun c => { c with glisConfig := 0 }) ∧
  InstrRule .noteCutOff [0x55] (fun c => { c with arpNotes := 0 })

/-- SET_TEMPO (R186; decisions D8, D32): a nonzero operand becomes `G.tempo`, and of the channel only the
cursor moves; a zero operand takes `TempoZero`. -/
def Obligations.SetTempoWritesTempo : Prop :=
  ∀ (t : Byte) (s : State), s.curChan.cursor.toNat + 2 ≤ 0xFFFF →
    (t ≠ 0 → ∃ u, exec (.setTempo t) s = .next { u with tempo := t } ∧
      OnlyCur s u { s.curChan with cursor := s.curChan.cursor + 2 }) ∧
    (t = 0 → ∃ u, exec (.setTempo t) s = .next u ∧ TakesFault s u .tempoZero)

/-- RESERVED_FX (R188, 30_encoding.md R110; decision D9): exactly the first bytes 86..156, 158 and 159
are unassigned; each is one byte long and takes `ReservedFx`, which writes nothing else. -/
def Obligations.UnassignedSetupBytesFault : Prop :=
  (∀ (p : Params) (op : Byte) (rest : List Byte),
    decode p (op :: rest) = .ok (.reservedFx op) 1 ↔
      (86 ≤ op.toNat ∧ op.toNat ≤ 156) ∨ op.toNat = 158 ∨ op.toNat = 159) ∧
  (∀ (op : Byte) (s : State), s.curChan.cursor.toNat + 1 ≤ 0xFFFF →
    ∃ t, exec (.reservedFx op) s = .next t ∧ TakesFault s t .reservedFx)

/-! ## DELAY, LONG_DELAY, RESERVED, DATA -/

/-- DELAY (43_delay.md R201): first bytes 160..223, `delay = op - 159`, 1..64, and nothing else. -/
def Obligations.DelaySetsItsTicks : Prop :=
  ∀ d : Nat, 1 ≤ d → d ≤ 64 →
    InstrRule (.delay d) [BitVec.ofNat 8 (159 + d)] (fun c => { c with delay := BitVec.ofNat 16 d })

/-- LONG_DELAY (R202, R203; decisions D24, D25): the VLE value plus 129 becomes `delay`; where that is
0xFFFF or more the channel takes `DelayRange` instead. -/
def Obligations.LongDelayAddsItsBias : Prop :=
  ∀ (k : Nat) (v : Word) (s : State), s.curChan.cursor.toNat + (1 + k) ≤ 0xFFFF →
    (v.toNat < 65406 → ∃ (t : State) (d : Word), exec (.longDelay k v) s = .next t ∧
      d.toNat = v.toNat + 129 ∧ d ≠ 0xFFFF ∧
      OnlyCur s t
        { s.curChan with cursor := s.curChan.cursor + BitVec.ofNat 16 (1 + k), delay := d }) ∧
    (65406 ≤ v.toNat → ∃ t, exec (.longDelay k v) s = .next t ∧ TakesFault s t .delayRange)

/-- A delay of `d` ticks is counted down to `d - n` after `n` ticks and never below 0; the Exhausted
sentinel is not counted (40_tick_routine.md R133, R136; decision D4). -/
def Obligations.DelayCountsDownToZero : Prop :=
  (∀ (c : Channel) (n : Nat), c.delay ≠ 0xFFFF → n ≤ c.delay.toNat →
    Channel.countDown^[n] c = { c with delay := BitVec.ofNat 16 (c.delay.toNat - n) }) ∧
  (∀ (c : Channel) (n : Nat), c.delay = 0 ∨ c.delay = 0xFFFF → Channel.countDown^[n] c = c)

/-- RESERVED and DATA move the cursor and nothing else (44_reserved_and_data.md R210, R211, R213; decisions
D10, D22, D24). RESERVED, for every value of the OPEN `RESERVED_LEN`, past its operand bytes; DATA past
its literal bytes, which need not lie in the image, or, where the cursor would pass 0xFFFF, it takes
`SongBounds`. -/
def Obligations.ReservedAndDataOnlyMoveTheCursor : Prop :=
  (∀ (p : Params) (op : Byte) (operands rest : List Byte),
    (Instr.reserved op operands).wf p = true →
      decode p (op :: operands ++ rest) = .ok (.reserved op operands) (1 + operands.length)) ∧
  (∀ (op : Byte) (operands : List Byte) (s : State),
    s.curChan.cursor.toNat + (1 + operands.length) ≤ 0xFFFF →
      ∃ t, exec (.reserved op operands) s = .next t ∧
        OnlyCur s t
          { s.curChan with
            cursor := s.curChan.cursor + BitVec.ofNat 16 (1 + operands.length) }) ∧
  ∀ (k : Nat) (len : Word) (s : State),
    (s.curChan.cursor.toNat + (1 + k + len.toNat) ≤ 0xFFFF →
      ∃ t, exec (.data k len) s = .next t ∧
        OnlyCur s t
          { s.curChan with
            cursor := s.curChan.cursor + BitVec.ofNat 16 (1 + k + len.toNat) }) ∧
    (0xFFFF < s.curChan.cursor.toNat + (1 + k + len.toNat) →
      ∃ t, exec (.data k len) s = .next t ∧ TakesFault s t .songBounds)

/-! ## CALL, CALL_REPEAT, RETURN -/

/-- CALL_REPEAT `r`, `t` and CALL `t`, with `r = 0` (45_call_return.md R221, R222, R224; decision D20):
the frame (return cursor, repeat counter, track id) is pushed and the track entered at its
`trackOffset`, read little-endian from the table (20_memory.md R73, R78, R80). -/
def Obligations.CallPushesAFrameAndJumps : Prop :=
  ∀ (r t lo hi : Byte) (s : State), s.curChan.sp ≠ 7 → t.toNat < s.trackCount.toNat →
    Memory.read s.song (1 + 2 * t.toNat) = some lo →
    Memory.read s.song (1 + 2 * t.toNat + 1) = some hi →
    (s.curChan.cursor.toNat + 3 ≤ 0xFFFF →
      ∃ u, exec (.callRepeat r t) s = .next u ∧
        OnlyCur s u
          { s.curChan with
            stack := s.curChan.stack.setIfInBounds s.curChan.sp.toNat
              { ret := s.curChan.cursor + 3, cnt := s.curChan.repeatCounter,
                trk := s.curChan.trackId }
            sp := s.curChan.sp + 1
            repeatCounter := r
            trackId := t
            cursor := hi ++ lo }) ∧
    (s.curChan.cursor.toNat + 2 ≤ 0xFFFF →
      ∃ u, exec (.call t) s = .next u ∧
        OnlyCur s u
          { s.curChan with
            stack := s.curChan.stack.setIfInBounds s.curChan.sp.toNat
              { ret := s.curChan.cursor + 2, cnt := s.curChan.repeatCounter,
                trk := s.curChan.trackId }
            sp := s.curChan.sp + 1
            repeatCounter := 0
            trackId := t
            cursor := hi ++ lo })

/-- The faults of a call and their order (R223, R224, 60_exceptions.md R297; decisions D21, D23):
`StackOverflow` at depth 7 before anything else, then `TrackRange`, then `SongBounds` from the offset
table; at any smaller depth a call of a readable track is legal and raises the depth. -/
def Obligations.CallFaultsInOrder : Prop :=
  ∀ (r t : Byte) (s : State) (i : Instr), i = .callRepeat r t ∨ i = .call t →
    s.curChan.cursor.toNat + i.size ≤ 0xFFFF →
    (s.curChan.sp = 7 → ∃ u, exec i s = .next u ∧ TakesFault s u .stackOverflow) ∧
    (s.curChan.sp ≠ 7 → s.trackCount.toNat ≤ t.toNat →
      ∃ u, exec i s = .next u ∧ TakesFault s u .trackRange) ∧
    (s.curChan.sp ≠ 7 → t.toNat < s.trackCount.toNat →
      (Memory.read s.song (1 + 2 * t.toNat) = none ∨
        Memory.read s.song (1 + 2 * t.toNat + 1) = none) →
      ∃ u, exec i s = .next u ∧ TakesFault s u .songBounds) ∧
    (s.curChan.sp ≠ 7 → s.trackReadable t →
      ∃ u, exec i s = .next u ∧ u.curChan.fault = s.curChan.fault ∧
        u.curChan.sp.toNat = s.curChan.sp.toNat + 1)

/-- RETURN (R226, R230): restart while the repeat counter is not 0, else pop, else the track is
exhausted, which is no fault; a pop leaves the frame's contents in place. A restart of a track whose
table entry cannot be read, which no run reaches (R228, ReturnNeverFaults), takes `TrackStart`'s
fault. -/
def Obligations.ReturnRestartsPopsOrExhausts : Prop :=
  (encode .ret = [0xFE] ∧ ∀ p rest, decode p (0xFE :: rest) = .ok .ret 1) ∧
  ∀ s : State, s.curChan.cursor.toNat + 1 ≤ 0xFFFF →
    (s.curChan.repeatCounter ≠ 0 → ∀ cause, s.trackStart s.curChan.trackId = .error cause →
      ∃ t, exec .ret s = .next t ∧ TakesFault s t cause) ∧
    (s.curChan.repeatCounter ≠ 0 → ∀ w, s.trackStart s.curChan.trackId = .ok w →
      ∃ t, exec .ret s = .next t ∧
        OnlyCur s t
          { s.curChan with repeatCounter := s.curChan.repeatCounter - 1, cursor := w }) ∧
    (s.curChan.repeatCounter = 0 → s.curChan.sp ≠ 0 →
      ∃ t, exec .ret s = .next t ∧
        OnlyCur s t
          { s.curChan with
            sp := s.curChan.sp - 1
            cursor := (s.curChan.frame (s.curChan.sp.toNat - 1)).ret
            repeatCounter := (s.curChan.frame (s.curChan.sp.toNat - 1)).cnt
            trackId := (s.curChan.frame (s.curChan.sp.toNat - 1)).trk }) ∧
    (s.curChan.repeatCounter = 0 → s.curChan.sp = 0 →
      ∃ t, exec .ret s = .next t ∧
        OnlyCur s t
          { s.curChan with cursor := s.curChan.cursor + 1, delay := 0xFFFF })

/-- RETURN never faults in a state that keeps the call-stack discipline (R226, R228, R230). -/
def Obligations.ReturnNeverFaults : Prop :=
  ∀ s : State, CallInv s → s.curChan.cursor.toNat + 1 ≤ 0xFFFF →
    ∃ t, exec .ret s = .next t ∧ t.curChan.fault = s.curChan.fault

/-- A CALL and the RETURN that ends the called track, wherever it stands and whatever else the track has
changed, restore the caller's repeat counter, track id and depth, and resume after the call; only those
are restored (R229). After a CALL_REPEAT `r` the first `r` RETURNs restart the called track at its
start, each taking one off the counter, and the next one restores the caller (R227); `v j` is the state
in which the `j`-th of them stands. Both rules are marked by the spec as derived. -/
def Obligations.ReturnUndoesCall : Prop :=
  (∀ (t : Byte) (s u v : State), s.curChan.sp ≠ 7 → s.curChan.cursor.toNat + 2 ≤ 0xFFFF →
    s.trackReadable t → exec (.call t) s = .next u →
    v.curChan.sp = u.curChan.sp → v.curChan.stack = u.curChan.stack →
    v.curChan.repeatCounter = u.curChan.repeatCounter → v.curChan.cursor.toNat + 1 ≤ 0xFFFF →
    ∃ w, exec .ret v = .next w ∧
      OnlyCur v w
        { v.curChan with
          sp := s.curChan.sp
          cursor := s.curChan.cursor + 2
          repeatCounter := s.curChan.repeatCounter
          trackId := s.curChan.trackId }) ∧
  ∀ (r t : Byte) (target : Word) (s u : State) (v : Nat → State), s.curChan.sp ≠ 7 →
    s.curChan.cursor.toNat + 3 ≤ 0xFFFF → s.trackStart t = .ok target →
    exec (.callRepeat r t) s = .next u → SameCall u (v 0) →
    (∀ j, j < r.toNat → ∀ w, exec .ret (v j) = .next w → SameCall w (v (j + 1))) →
    (∀ j, j ≤ r.toNat → (v j).curChan.cursor.toNat + 1 ≤ 0xFFFF) →
    (∀ j, j < r.toNat → ∃ w, exec .ret (v j) = .next w ∧
      OnlyCur (v j) w
        { (v j).curChan with
          repeatCounter := BitVec.ofNat 8 (r.toNat - (j + 1)), cursor := target }) ∧
    ∃ w, exec .ret (v r.toNat) = .next w ∧
      OnlyCur (v r.toNat) w
        { (v r.toNat).curChan with
          sp := s.curChan.sp
          cursor := s.curChan.cursor + 3
          repeatCounter := s.curChan.repeatCounter
          trackId := s.curChan.trackId }

/-! ## The effect processors -/

/-- `EveryN` from a counter of 0 counts the ticks and fires on the N-th; N = 0 fires at once like N = 1;
a counter at or above N - 1 fires on the next tick (46_effect_processors.md R241; decision D5). -/
def Obligations.EveryNFiresOnTheNthTick : Prop :=
  (∀ n j : Nat, n ≤ 127 → j < n → (fun k : Byte => (everyN k n).2)^[j] 0 = BitVec.ofNat 8 j ∧
    ((everyN (BitVec.ofNat 8 j) n).1 = true ↔ j + 1 = n)) ∧
  (∀ (k : Byte) (n : Nat), n ≤ k.toNat + 1 → everyN k n = (true, 0)) ∧
  (∀ k : Byte, everyN k 0 = everyN k 1)

/-- A firing slide moves its one target by the signed step: clamped to 0..63 or 0..9397, or wrapped at
the register's width where the unbounded bit is set; every other register but the counter keeps its
value. A slide that does not fire only counts; with step 0 nothing changes (R240, R243; decisions D5,
D11, D17). -/
def Obligations.SlideMovesItsTarget : Prop :=
  ∀ c : Channel,
    (c.slideStep = 0 → c.slide = c) ∧
    (c.slideStep ≠ 0 → c.slideCount.toNat + 1 < c.slideConfig.toNat % 64 →
      c.slide = { c with slideCount := c.slideCount + 1 }) ∧
    (c.slideStep ≠ 0 → c.slideConfig.toNat % 64 ≤ c.slideCount.toNat + 1 →
      (c.slideConfig.getLsbD 6 = false →
        ∃ v, c.slide = { c with slideCount := 0, volume := v } ∧
          (c.slideConfig.getLsbD 7 = false →
            (v.toNat : Int) = max 0 (min 63 (c.volume.toNat + c.slideStep.toInt))) ∧
          (c.slideConfig.getLsbD 7 = true → v = c.volume + c.slideStep)) ∧
      (c.slideConfig.getLsbD 6 = true →
        ∃ f, c.slide = { c with slideCount := 0, frequency := f } ∧
          (c.slideConfig.getLsbD 7 = false →
            (f.toNat : Int) = max 0 (min 9397 (c.frequency.toNat + c.slideStep.toInt))) ∧
          (c.slideConfig.getLsbD 7 = true → f = c.frequency + c.slideStep.signExtend 16)))

/-- The arpeggio machine (R248; decisions D12, D16): below the threshold it counts; at the threshold it
changes phase and writes the frequency of the new phase: base, base + high nibble, base + both nibbles,
each transposed again and clamped; the third phase is skipped by `arpTiming[6]` and in note-cut mode,
whose phase 1 is silence. With the gate 0 or no note it does nothing. -/
def Obligations.ArpeggioCyclesItsPhases : Prop :=
  (∀ (p : Params) (c : Channel), c.arpNotes = 0 ∨ c.note = 0 → c.arpCut p = c) ∧
  ∀ (p : Params) (c : Channel), c.arpNotes ≠ 0 → c.note ≠ 0 →
    (c.arpTick.toNat < c.arpTiming.toNat % 32 →
      c.arpCut p = { c with arpTick := c.arpTick + 1 }) ∧
    (c.arpTiming.toNat % 32 ≤ c.arpTick.toNat →
      ∃ f : Word,
        c.arpCut p =
          { c with
            arpTick := 0
            arpPhase :=
              if c.arpPhase = 0 then 1
              else if c.arpPhase = 1 ∧ c.arpTiming.getLsbD 6 = false ∧ c.arpNotes ≠ 0xFF then 2
              else 0
            frequency := f } ∧
        (c.arpNotes = 0xFF → c.arpPhase = 0 → f = 0) ∧
        (c.arpNotes = 0xFF → c.arpPhase ≠ 0 →
          f = noteFreq p (clampNote (c.note.toNat + c.transpose.toInt))) ∧
        (c.arpNotes ≠ 0xFF → c.arpPhase = 0 →
          f = noteFreq p (clampNote (c.note.toNat + c.arpNotes.toNat / 16 + c.transpose.toInt))) ∧
        (c.arpNotes ≠ 0xFF → c.arpPhase = 1 → c.arpTiming.getLsbD 6 = false →
          f = noteFreq p (clampNote (c.note.toNat + c.arpNotes.toNat / 16
            + c.arpNotes.toNat % 16 + c.transpose.toInt))) ∧
        (c.arpNotes ≠ 0xFF → (c.arpPhase = 1 ∧ c.arpTiming.getLsbD 6 = true ∨ 2 ≤ c.arpPhase.toNat) →
          f = noteFreq p (clampNote (c.note.toNat + c.transpose.toInt))))

/-- An unbounded tremolo or vibrato is a triangle wave: over `2 (P + 1)` ticks every register comes back
(R253, R254; decisions D13, D17). -/
def Obligations.UnboundedTremoloIsPeriodic : Prop :=
  ∀ c : Channel, c.treviConfig.getLsbD 7 = true → c.treviTick = 0 →
    Channel.trevi^[2 * (c.treviConfig.toNat % 32 + 1)] c = c

/-- One tick of tremolo or vibrato moves its one target by the depth, down in phase 0 and up in phase 1,
by the clamping rule; the phase flips where the counter has reached the period (R253; decision D13).
With depth 0 nothing changes. -/
def Obligations.TremoloMovesItsTarget : Prop :=
  (∀ c : Channel, c.treviDepth = 0 → c.trevi = c) ∧
  ∀ c : Channel, c.treviDepth ≠ 0 →
    ∃ (v : Byte) (f : Word),
      c.trevi =
        { c with
          volume := v
          frequency := f
          treviTick := if c.treviTick.toNat < c.treviConfig.toNat % 32 then c.treviTick + 1 else 0
          treviPhase :=
            if c.treviTick.toNat < c.treviConfig.toNat % 32 then c.treviPhase else !c.treviPhase } ∧
      (let d : Int := if c.treviPhase then c.treviDepth.toNat else -c.treviDepth.toNat
       (c.treviConfig.getLsbD 6 = false → f = c.frequency ∧
          (c.treviConfig.getLsbD 7 = false →
            (v.toNat : Int) = max 0 (min 63 (c.volume.toNat + d))) ∧
          (c.treviConfig.getLsbD 7 = true → v = BitVec.ofInt 8 (c.volume.toNat + d))) ∧
       (c.treviConfig.getLsbD 6 = true → v = c.volume ∧
          (c.treviConfig.getLsbD 7 = false →
            (f.toNat : Int) = max 0 (min 9397 (c.frequency.toNat + d))) ∧
          (c.treviConfig.getLsbD 7 = true → f = BitVec.ofInt 16 (c.frequency.toNat + d))))

/-- A firing glissando moves the note by one semitone inside 1..63 and takes its table frequency; from a
note off it goes to note 1 in either direction (R256, R257). A firing retrigger reloads the frequency
from its fixed table entry, on any channel, and leaves the note alone (R259). One that does not fire only
counts; with its gate 0 either does nothing (decisions D5, D14, D15, D16). -/
def Obligations.GlissandoStepsAndRetriggerReloads : Prop :=
  ∀ (p : Params) (c : Channel),
    (c.glisConfig = 0 → c.glissando p = c) ∧ (c.retrigConfig = 0 → c.retrigger p = c) ∧
    (c.glisConfig ≠ 0 → c.glisCount.toNat + 1 < c.glisConfig.toNat % 128 →
      c.glissando p = { c with glisCount := c.glisCount + 1 }) ∧
    (c.glisConfig ≠ 0 → c.glisConfig.toNat % 128 ≤ c.glisCount.toNat + 1 →
      ∃ n : BitVec 6,
        c.glissando p = { c with glisCount := 0, note := n, frequency := noteFreq p n } ∧
        (n.toNat : Int) = max 1 (min 63
          (if c.glisConfig.getLsbD 7 then (c.note.toNat : Int) - 1 else c.note.toNat + 1)) ∧
        (c.note = 0 → n = 1)) ∧
    (c.retrigConfig ≠ 0 → c.retrigCount.toNat + 1 < c.retrigConfig.toNat % 4 →
      c.retrigger p = { c with retrigCount := c.retrigCount + 1 }) ∧
    (c.retrigConfig ≠ 0 → c.retrigConfig.toNat % 4 ≤ c.retrigCount.toNat + 1 →
      ∃ n : BitVec 6, n.toNat = c.retrigConfig.toNat / 4 ∧
        c.retrigger p = { c with retrigCount := 0, frequency := noteFreq p n })

/-- Bounded effects keep a channel in range: with both unbounded bits clear, volume and frequency inside
0..63 and 0..9397 stay there, for every table the spec admits (R242, 20_memory.md R76). -/
def Obligations.BoundedEffectsStayInRange : Prop :=
  ∀ (p : Params) (c : Channel), p.wf = true → c.slideConfig.getLsbD 7 = false →
    c.treviConfig.getLsbD 7 = false → c.volume.toNat ≤ 63 → c.frequency.toNat ≤ 9397 →
    (c.runEffects p).volume.toNat ≤ 63 ∧ (c.runEffects p).frequency.toNat ≤ 9397

/-- With all five gates zero the processors change nothing, their counters included (R240; decision D6);
and no processor writes a register that is not an effect's own, the note, the frequency or the volume
(R263). -/
def Obligations.EffectsWriteOnlyTheirRegisters : Prop :=
  ∀ (p : Params) (c : Channel),
    (c.slideStep = 0 → c.arpNotes = 0 → c.treviDepth = 0 → c.glisConfig = 0 → c.retrigConfig = 0 →
      c.runEffects p = c) ∧
    c.runEffects p =
      { c with
        note := (c.runEffects p).note
        frequency := (c.runEffects p).frequency
        volume := (c.runEffects p).volume
        slideCount := (c.runEffects p).slideCount
        arpPhase := (c.runEffects p).arpPhase
        arpTick := (c.runEffects p).arpTick
        treviTick := (c.runEffects p).treviTick
        treviPhase := (c.runEffects p).treviPhase
        glisCount := (c.runEffects p).glisCount
        retrigCount := (c.runEffects p).retrigCount }

/-! ## The tick routine -/

/-- A tick that begins while ticks are disabled is dropped and changes no register; one that begins while
they are enabled starts the service of channel 0 (40_tick_routine.md R130, 60_exceptions.md R300;
decisions D3, D28). -/
def Obligations.DisabledTickIsDropped : Prop :=
  ∀ s : State, s.resetIn = false → s.phase = .idle → s.pending = [.tick] →
    (s.tickEnable = false → step s = .next { s with pending := [] }) ∧
    (s.tickEnable = true → step s = .next { s with pending := [], phase := .service, cur := 0 })

/-- A channel that is inactive or faulted is not serviced: no register of any channel and no slot
changes, and the next channel in ascending order follows, or the end of the tick (R130, R131,
60_exceptions.md R293; decisions D3, D30). -/
def Obligations.InactiveOrFaultedChannelIsSkipped : Prop :=
  ∀ s : State, s.resetIn = false → s.phase = .service →
    (s.mask.getLsbD (4 + s.cur.val) = false ∨ s.curChan.fault ≠ 0) →
    (s.cur = 3 → step s = .next { s with phase := .autoStopCheck, cur := 0 }) ∧
    (s.cur ≠ 3 → step s = .next { s with phase := .service, cur := s.cur + 1 })

/-- A serviced channel runs its effects, in the order slide, arpeggio, trevi, glissando, retrigger,
before it fetches; a channel that waits counts one tick and goes on to publish, one that does not wait
goes on to fetch (R131, R132, R133, 70_reset_and_hazards.md R348). -/
def Obligations.ServiceRunsEffectsThenWaitsOrFetches : Prop :=
  ∀ s : State, s.resetIn = false → s.phase = .service → s.mask.getLsbD (4 + s.cur.val) = true →
    s.curChan.fault = 0 →
    ∃ t : State, ∃ c : Channel, stepN 2 s = .next t ∧ SameOutside s { t with phase := s.phase } ∧
      c = Channel.retrigger s.params (Channel.glissando s.params
        (Channel.trevi (Channel.arpCut s.params (Channel.slide s.curChan)))) ∧
      (s.curChan.delay = 0 → t.phase = .interpret ∧ t.curChan = c) ∧
      (s.curChan.delay = 0xFFFF → t.phase = .publishFreq ∧ t.curChan = c) ∧
      (s.curChan.delay ≠ 0 → s.curChan.delay ≠ 0xFFFF →
        t.phase = .publishFreq ∧ t.curChan = { c with delay := s.curChan.delay - 1 })

/-- The interpreter loop goes on while `delay` is 0 and there is no fault; a delay ends it, counts this
tick unless the track is exhausted, and publishes; a fault ends it without publishing: no register
changes and the next channel follows, or after channel 3 the end of the tick (R130, R131, R133, R134). -/
def Obligations.LoopEndsOnDelayOrFault : Prop :=
  ∀ s : State, s.resetIn = false → s.phase = .loopTest →
    (s.curChan.fault = 0 → s.curChan.delay = 0 → step s = .next { s with phase := .interpret }) ∧
    (s.curChan.fault = 0 → s.curChan.delay ≠ 0 →
      ∃ t, OnlyCur s t
          { s.curChan with
            delay := if s.curChan.delay = 0xFFFF then 0xFFFF else s.curChan.delay - 1 } ∧
        step s = .next { t with phase := .publishFreq }) ∧
    (s.curChan.fault ≠ 0 → s.cur = 3 →
      step s = .next { s with phase := .autoStopCheck, cur := 0 }) ∧
    (s.curChan.fault ≠ 0 → s.cur ≠ 3 →
      step s = .next { s with phase := .service, cur := s.cur + 1 })

/-- `Publish` (R138; decision D33): the frequency first, then the volume, each whole; not while muted;
channel 3 publishes half its volume and no frequency. Nothing but that slot changes, and then the next
channel in ascending order follows, or after channel 3 the end of the tick (R130; decision D3). -/
def Obligations.PublishWritesTheSlotOfItsChannel : Prop :=
  ∀ s : State, s.resetIn = false → s.phase = .publishFreq →
    ∃ u t : State, step s = .next { u with phase := .publishVol } ∧ u = { s with osc := u.osc } ∧
      t = { s with osc := t.osc } ∧
      (s.cur = 3 → stepN 2 s = .next { t with phase := .autoStopCheck, cur := 0 }) ∧
      (s.cur ≠ 3 → stepN 2 s = .next { t with phase := .service, cur := s.cur + 1 }) ∧
      (∀ n, n ≠ s.cur → u.slot n = s.slot n ∧ t.slot n = s.slot n) ∧
      (s.mask.getLsbD s.cur.val = true → u.slot s.cur = s.slot s.cur ∧ t.slot s.cur = s.slot s.cur) ∧
      (s.mask.getLsbD s.cur.val = false → s.cur ≠ 3 →
        u.slot s.cur = { freq := s.curChan.frequency, vol := (s.slot s.cur).vol } ∧
        t.slot s.cur = { freq := s.curChan.frequency, vol := s.curChan.volume }) ∧
      (s.mask.getLsbD s.cur.val = false → s.cur = 3 →
        u.slot s.cur = s.slot s.cur ∧
        t.slot s.cur = { freq := (s.slot s.cur).freq, vol := s.curChan.volume >>> 1 })

/-- `AutoStopCheck` (R140; decision D29): with no channel active the block stops itself as `stop` does;
else the tick is over and nothing changes. So the fourth combination of 60_exceptions.md R314, ticks
enabled with no channel active, lasts until the next tick, which services nothing and leaves the block
stopped (47_host_commands.md R276): the whole tick, the fourteen micro-steps of the model (log 1,
log 13). -/
def Obligations.AutoStopStopsAnInactiveBlock : Prop :=
  (∀ s : State, s.resetIn = false → s.phase = .autoStopCheck →
    (s.mask.toNat / 16 ≠ 0 → step s = .next { s with phase := .idle, cur := 0 }) ∧
    (s.mask.toNat / 16 = 0 → ∃ t, stepN 9 s = .next t ∧ t.phase = .idle ∧ t.tickEnable = false ∧
      t.mask = s.mask ∧ (∀ c, t.chan c = Channel.zero) ∧
      (∀ n, t.slot n = { freq := 0, vol := 0 }) ∧ t.tempo = s.tempo ∧ t.trackCount = s.trackCount ∧
      t.trackBase = s.trackBase ∧ t.song = s.song ∧ t.pending = s.pending ∧ t.isStopped)) ∧
  ∀ s : State, s.resetIn = false → s.phase = .idle → s.pending = [.tick] → s.isTickingStopped →
    ∃ t, stepN 14 s = .next t ∧ t.phase = .idle ∧ t.pending = [] ∧ t.mask = s.mask ∧ t.isStopped ∧
      (∀ n, t.slot n = { freq := 0, vol := 0 }) ∧ t.tempo = s.tempo ∧ t.trackCount = s.trackCount ∧
      t.trackBase = s.trackBase ∧ t.song = s.song

/-- A faulted channel is frozen through the tick: no register of it and no slot of its changes
(60_exceptions.md R293; decision D30). -/
def Obligations.FaultedChannelIsFrozen : Prop :=
  ∀ (s t : State) (c : Fin 4), FaultInv s → s.resetIn = false → (s.chan c).fault ≠ 0 →
    s.phase = .service ∨ s.phase.inService = true →
    step s = .next t → t.chan c = s.chan c ∧ t.slot c = s.slot c

/-- Events wait while the block is busy: no step inside an event takes a pending one, and the parameters
never change (70_reset_and_hazards.md R340, 10_state.md R20). -/
def Obligations.PendingEventsWait : Prop :=
  ∀ s t : State, s.resetIn = false → step s = .next t →
    t.params = s.params ∧ (s.phase ≠ .idle → t.pending = s.pending ∧ t.song = s.song)

/-- `Interpret` always ends (R137): from every state about to fetch, after finitely many steps the loop
test finds a delay or a fault, still on the same channel. -/
def Obligations.InterpreterLoopEnds : Prop :=
  ∀ s : State, s.resetIn = false → s.phase = .interpret →
    ∃ n t, stepN n s = .next t ∧ t.phase = .loopTest ∧ t.cur = s.cur ∧
      (t.curChan.delay ≠ 0 ∨ t.curChan.fault ≠ 0)

/-- Every event ends: from every state without reset asserted the block becomes idle again (R130, R137,
20_memory.md R85 "runs to completion"). -/
def Obligations.EveryEventEnds : Prop :=
  ∀ s : State, s.resetIn = false → ∃ n t, stepN n s = .next t ∧ t.phase = .idle

/-! ## Host commands, reset -/

/-- With nothing pending the block does nothing; otherwise exactly one pending event begins and the
others stay pending in their order, whichever of them the arbiter's free choice is (60_exceptions.md R301,
70_reset_and_hazards.md R340; decision D2). -/
def Obligations.OnePendingEventBegins : Prop :=
  ∀ s : State, s.resetIn = false → s.phase = .idle →
    (s.pending = [] → step s = .next s) ∧
    (s.pending ≠ [] → ∃ k n t, ∃ h : k < s.pending.length,
      step s = .next t ∧ t.pending = s.pending.eraseIdx k ∧
      t = State.startEvent { s with pending := s.pending.eraseIdx k, choices := n } (s.pending[k]'h))

/-- `play` (47_host_commands.md R271, R272; decisions D22, D23, D27, D29, D30, D32): the whole event, the
ten micro-steps of the model (log 1, log 13). Before the header is read, after the first nine, the image
is installed, every channel register and every slot is zero and the globals are as before. At the end
the header is read, every channel zero but for the seeded cursor, or faulted at cursor 0; active bits
set, mute bits kept; every slot zero. The block is playing, whatever state it was in (60_exceptions.md
R314). -/
def Obligations.PlayInstallsAndSeeds : Prop :=
  ∀ (s : State) (image : List Byte), s.resetIn = false → s.phase = .idle →
    s.pending = [.play image] →
    (∃ u, stepN 9 s = .next u ∧ (∀ a, Memory.read u.song a = image[a]?) ∧
      (∀ c, u.chan c = Channel.zero) ∧ (∀ n, u.slot n = { freq := 0, vol := 0 }) ∧
      u.mask = s.mask ∧ u.tempo = s.tempo ∧ u.tickEnable = s.tickEnable ∧
      u.trackCount = s.trackCount ∧ u.trackBase = s.trackBase) ∧
    ∃ t, stepN 10 s = .next t ∧ t.phase = .idle ∧ t.pending = [] ∧
      (∀ a, Memory.read t.song a = image[a]?) ∧ t.trackCount = image.getD 0 0 ∧
      t.trackBase.toNat = 5 + 2 * t.trackCount.toNat ∧ t.mask = s.mask ||| 0xF0 ∧
      t.tempo = s.params.defaultTempo ∧ t.tickEnable = true ∧ t.isPlaying ∧
      (∀ n, t.slot n = { freq := 0, vol := 0 }) ∧
      ∀ n : Fin 4,
        (image[1 + 2 * t.trackCount.toNat + n.val]? = none →
          t.chan n = { Channel.zero with fault := 3 }) ∧
        ∀ id : Byte, image[1 + 2 * t.trackCount.toNat + n.val]? = some id →
          (t.trackCount.toNat ≤ id.toNat → t.chan n = { Channel.zero with fault := 4 }) ∧
          (id.toNat < t.trackCount.toNat →
            (∀ lo hi : Byte, image[1 + 2 * id.toNat]? = some lo →
              image[1 + 2 * id.toNat + 1]? = some hi →
                t.chan n = { Channel.zero with cursor := hi ++ lo }) ∧
            (image[1 + 2 * id.toNat + 1]? = none → t.chan n = { Channel.zero with fault := 3 }))

/-- A song whose header is whole and whose start tracks exist faults no channel at `play`
(70_reset_and_hazards.md R345, first condition). -/
def Obligations.WholeHeaderPlaysWithoutFault : Prop :=
  ∀ (s : State) (image : List Byte) (count : Byte), s.resetIn = false → s.phase = .idle →
    s.pending = [.play image] → image[0]? = some count → 5 + 2 * count.toNat ≤ image.length →
    (∀ (n : Fin 4) (id : Byte), image[1 + 2 * count.toNat + n.val]? = some id →
      id.toNat < count.toNat) →
    ∃ t, stepN 10 s = .next t ∧ t.noFault ∧ t.isPlaying

/-- `stop` (47_host_commands.md R274; decision D29): the whole event. Ticks disabled, active bits clear,
every channel register and every slot 0; the mute bits, `tempo`, `trackCount` and `trackBase` stay. The
block is stopped, whatever state it was in (60_exceptions.md R314). -/
def Obligations.StopSilencesTheBlock : Prop :=
  ∀ s : State, s.resetIn = false → s.phase = .idle → s.pending = [.stop] →
    ∃ t, stepN 9 s = .next t ∧ t.phase = .idle ∧ t.pending = [] ∧ t.tickEnable = false ∧
      t.mask = s.mask &&& 0x0F ∧ (∀ c, t.chan c = Channel.zero) ∧
      (∀ n, t.slot n = { freq := 0, vol := 0 }) ∧ t.tempo = s.tempo ∧ t.trackCount = s.trackCount ∧
      t.trackBase = s.trackBase ∧ t.song = s.song ∧ t.isStopped

/-- `playPause`, `mute`, `unmute` (R276, R277; decisions D27, D28): one bit each, and nothing else.
`playPause` moves between playing and paused, and between the stopped state and the fourth combination
of 60_exceptions.md R314; that it leads back from there is for zero channels, as in every run. That
each is one micro-step, from idle to idle, is the model's choice (log 1, log 25), and so is the list in
which events wait (log 2). -/
def Obligations.PauseAndMuteWriteOneBit : Prop :=
  ∀ s : State, s.resetIn = false → s.phase = .idle →
    (s.pending = [.playPause] →
      ∃ t, t = { s with pending := [], tickEnable := !s.tickEnable } ∧ step s = .next t ∧
        (s.isPlaying → t.isPaused) ∧ (s.isPaused → t.isPlaying) ∧
        (s.isStopped → t.isTickingStopped) ∧
        (s.isTickingStopped → (∀ c, s.chan c = Channel.zero) → t.isStopped)) ∧
    ∀ n : Fin 4,
      (s.pending = [.mute n] → ∃ m : Byte, step s = .next { s with pending := [], mask := m } ∧
        ∀ j, m.getLsbD j = (decide (j = n.val) || s.mask.getLsbD j)) ∧
      (s.pending = [.unmute n] → ∃ m : Byte, step s = .next { s with pending := [], mask := m } ∧
        ∀ j, m.getLsbD j = (decide (j ≠ n.val) && s.mask.getLsbD j))

/-- Reset (10_state.md R55, 70_reset_and_hazards.md R330, R331; decision D31): at any moment the `reset`
input brings every register to 0 and `tempo` to `DEFAULT_TEMPO`, abandons the event in progress and
leaves the block stopped. That one step does all of it is the model's choice (log 26); that the input is
a field which takes effect on the next step is read from the spec by inference (log 4). -/
def Obligations.ResetZeroesEveryRegister : Prop :=
  ∀ s : State, s.resetIn = true →
    ∃ t, step s = .next t ∧ (∀ c, t.chan c = Channel.zero) ∧ t.mask = 0 ∧ t.tickEnable = false ∧
      t.tempo = s.params.defaultTempo ∧ t.trackCount = 0 ∧ t.trackBase = 0 ∧
      (∀ n, t.slot n = { freq := 0, vol := 0 }) ∧ t.phase = .idle ∧ t.isStopped

/-- Mute does not halt sequencing (47_host_commands.md R278, 40_tick_routine.md R139): two states that
differ only in mute bits and the Oscillator Output go on in step and keep differing only there; and
`mute` and `unmute` themselves change nothing else. -/
def Obligations.MuteDoesNotHaltSequencing : Prop :=
  (∀ s u s' u' : State, SameButMute s u → step s = .next s' → step u = .next u' →
    SameButMute s' u') ∧
  (∀ (s : State) (n : Fin 4), SameButMute s (s.mute n) ∧ SameButMute s (s.unmute n))

/-! ## Invariants -/

/-- The effect counters stay in their ranges and arpeggio phase 3 never occurs (10_state.md R33, R36,
R42, R44). -/
def Obligations.StepKeepsCountersInRange : Prop :=
  ∀ s t : State, CountersInv s → step s = .next t → CountersInv t

/-- A faulted channel stays at the instruction that faulted and is never worked on (60_exceptions.md
R292, R293). -/
def Obligations.StepKeepsFaultedChannelsInPlace : Prop :=
  ∀ s t : State, FaultInv s → step s = .next t → FaultInv t

/-- The call-stack discipline (45_call_return.md R228): at depth 0 nothing is to be repeated; every live
frame and the current track of a call name readable tracks. -/
def Obligations.StepKeepsTheCallStackDiscipline : Prop :=
  ∀ s t : State, CallInv s → step s = .next t → CallInv t

/-- The run states (10_state.md R47, 60_exceptions.md R314): the active bits move together, a stopped
block's channels are zero. -/
def Obligations.StepKeepsTheRunStates : Prop :=
  ∀ s t : State, RunStateInv s → step s = .next t → RunStateInv t

/-- The image stays in canonical form and the globals in their ranges (20_memory.md R70, 10_state.md R49,
R51, R52): `tempo` is never 0, `trackBase` is what `trackCount` makes it, `osc[3].freq` is always 0. -/
def Obligations.StepKeepsTheGlobalsInRange : Prop :=
  ∀ s t : State, GlobalsInv s → step s = .next t → GlobalsInv t

/-- The reset state has every invariant. That `tempo` is not 0 there rests on the default 25 of the OPEN
`DEFAULT_TEMPO` (log 5), and that no image is listed on log 6. -/
def Obligations.ResetStateHasEveryInvariant : Prop :=
  CountersInv State.reset ∧ FaultInv State.reset ∧ CallInv State.reset ∧
    RunStateInv State.reset ∧ GlobalsInv State.reset
end

