-- ==== Sys2Proof/Laws/Decode.lean ====
section
/-! SUPPORT. The variable-length integer: reading back what the encoder writes. -/

namespace Sys2Proof

/-- A value has the bytes `vleMinBytes` asks for (30_encoding.md R107). -/
theorem lt_pow_of_vleMinBytes {v k : Nat} (hv : v < 65536) (h : vleMinBytes v ≤ k) :
    1 ≤ k ∧ v < 128 ^ k := by
  unfold vleMinBytes at h
  split at h
  · exact ⟨h, lt_of_lt_of_le (by omega : v < 128 ^ 1) (Nat.pow_le_pow_right (by decide) h)⟩
  · split at h
    · exact ⟨by omega, lt_of_lt_of_le (by omega : v < 128 ^ 2) (Nat.pow_le_pow_right (by decide) h)⟩
    · exact ⟨by omega, lt_of_lt_of_le (by omega : v < 128 ^ 3) (Nat.pow_le_pow_right (by decide) h)⟩

/-- The `k`-byte VLE of a value depends on the value modulo `128 ^ k`. -/
theorem encodeVle_congr : ∀ (k a b : Nat), a % 128 ^ k = b % 128 ^ k → encodeVle a k = encodeVle b k
  | 0, _, _, _ => rfl
  | 1, a, b, h => by simp only [pow_one] at h; simp [encodeVle, h]
  | k + 2, a, b, h => by
    have h1 : a % 128 ^ (k + 1) = b % 128 ^ (k + 1) := by
      have := congrArg (· % 128 ^ (k + 1)) h
      simpa [pow_succ 128 (k + 1), Nat.mod_mul_right_mod] using this
    have h2 : a / 128 ^ (k + 1) % 128 = b / 128 ^ (k + 1) % 128 := by
      have := congrArg (· / 128 ^ (k + 1)) h
      simpa [pow_succ 128 (k + 1), Nat.mod_mul_right_div_self] using this
    simp [encodeVle, h2, encodeVle_congr (k + 1) a b h1]

/-- A RESERVED instruction has at most two operand bytes (30_encoding.md R118). -/
theorem reservedOperands_le (p : Params) (op : Byte) : reservedOperands p op ≤ 2 := by
  unfold reservedOperands; split <;> omega

end Sys2Proof
end

