-- ==== Sys2Proof/Laws/State.lean ====
section
/-! SUPPORT. The small lemmas of the state's accessors and updates: one per field per update, so that no
proof unfolds a record update. -/

namespace Sys2Proof.Machine

variable (s : State)

@[simp] theorem State.setChan_mask (c : Fin 4) (x : Channel) : (s.setChan c x).mask = s.mask := rfl
@[simp] theorem State.setChan_tickEnable (c : Fin 4) (x : Channel) : (s.setChan c x).tickEnable = s.tickEnable := rfl
@[simp] theorem State.setChan_tempo (c : Fin 4) (x : Channel) : (s.setChan c x).tempo = s.tempo := rfl
@[simp] theorem State.setChan_trackCount (c : Fin 4) (x : Channel) : (s.setChan c x).trackCount = s.trackCount := rfl
@[simp] theorem State.setChan_trackBase (c : Fin 4) (x : Channel) : (s.setChan c x).trackBase = s.trackBase := rfl
@[simp] theorem State.setChan_osc (c : Fin 4) (x : Channel) : (s.setChan c x).osc = s.osc := rfl
@[simp] theorem State.setChan_song (c : Fin 4) (x : Channel) : (s.setChan c x).song = s.song := rfl
@[simp] theorem State.setChan_params (c : Fin 4) (x : Channel) : (s.setChan c x).params = s.params := rfl
@[simp] theorem State.setChan_phase (c : Fin 4) (x : Channel) : (s.setChan c x).phase = s.phase := rfl
@[simp] theorem State.setChan_cur (c : Fin 4) (x : Channel) : (s.setChan c x).cur = s.cur := rfl
@[simp] theorem State.setChan_pending (c : Fin 4) (x : Channel) : (s.setChan c x).pending = s.pending := rfl
@[simp] theorem State.setChan_resetIn (c : Fin 4) (x : Channel) : (s.setChan c x).resetIn = s.resetIn := rfl
@[simp] theorem State.setChan_choices (c : Fin 4) (x : Channel) : (s.setChan c x).choices = s.choices := rfl
@[simp] theorem State.setChan_slot (c : Fin 4) (x : Channel) (m : Fin 4) : (s.setChan c x).slot m = s.slot m := rfl
@[simp] theorem State.setChan_active (c : Fin 4) (x : Channel) (m : Fin 4) : (s.setChan c x).active m = s.active m := rfl
@[simp] theorem State.setChan_muted (c : Fin 4) (x : Channel) (m : Fin 4) : (s.setChan c x).muted m = s.muted m := rfl
@[simp] theorem State.setChan_activeNibble (c : Fin 4) (x : Channel) : (s.setChan c x).activeNibble = s.activeNibble := rfl
@[simp] theorem State.setChan_trackStart (c : Fin 4) (x : Channel) (i : Byte) : (s.setChan c x).trackStart i = s.trackStart i := rfl

@[simp] theorem State.setCur_mask (x : Channel) : (s.setCur x).mask = s.mask := rfl
@[simp] theorem State.setCur_tickEnable (x : Channel) : (s.setCur x).tickEnable = s.tickEnable := rfl
@[simp] theorem State.setCur_tempo (x : Channel) : (s.setCur x).tempo = s.tempo := rfl
@[simp] theorem State.setCur_trackCount (x : Channel) : (s.setCur x).trackCount = s.trackCount := rfl
@[simp] theorem State.setCur_trackBase (x : Channel) : (s.setCur x).trackBase = s.trackBase := rfl
@[simp] theorem State.setCur_osc (x : Channel) : (s.setCur x).osc = s.osc := rfl
@[simp] theorem State.setCur_song (x : Channel) : (s.setCur x).song = s.song := rfl
@[simp] theorem State.setCur_params (x : Channel) : (s.setCur x).params = s.params := rfl
@[simp] theorem State.setCur_phase (x : Channel) : (s.setCur x).phase = s.phase := rfl
@[simp] theorem State.setCur_cur (x : Channel) : (s.setCur x).cur = s.cur := rfl
@[simp] theorem State.setCur_pending (x : Channel) : (s.setCur x).pending = s.pending := rfl
@[simp] theorem State.setCur_resetIn (x : Channel) : (s.setCur x).resetIn = s.resetIn := rfl
@[simp] theorem State.setCur_choices (x : Channel) : (s.setCur x).choices = s.choices := rfl
@[simp] theorem State.setCur_slot (x : Channel) (m : Fin 4) : (s.setCur x).slot m = s.slot m := rfl
@[simp] theorem State.setCur_active (x : Channel) (m : Fin 4) : (s.setCur x).active m = s.active m := rfl
@[simp] theorem State.setCur_muted (x : Channel) (m : Fin 4) : (s.setCur x).muted m = s.muted m := rfl
@[simp] theorem State.setCur_activeNibble (x : Channel) : (s.setCur x).activeNibble = s.activeNibble := rfl
@[simp] theorem State.setCur_trackStart (x : Channel) (i : Byte) : (s.setCur x).trackStart i = s.trackStart i := rfl

@[simp] theorem State.raise_mask (e : FaultCause) : (s.raise e).mask = s.mask := rfl
@[simp] theorem State.raise_tickEnable (e : FaultCause) : (s.raise e).tickEnable = s.tickEnable := rfl
@[simp] theorem State.raise_tempo (e : FaultCause) : (s.raise e).tempo = s.tempo := rfl
@[simp] theorem State.raise_trackCount (e : FaultCause) : (s.raise e).trackCount = s.trackCount := rfl
@[simp] theorem State.raise_trackBase (e : FaultCause) : (s.raise e).trackBase = s.trackBase := rfl
@[simp] theorem State.raise_osc (e : FaultCause) : (s.raise e).osc = s.osc := rfl
@[simp] theorem State.raise_song (e : FaultCause) : (s.raise e).song = s.song := rfl
@[simp] theorem State.raise_params (e : FaultCause) : (s.raise e).params = s.params := rfl
@[simp] theorem State.raise_phase (e : FaultCause) : (s.raise e).phase = s.phase := rfl
@[simp] theorem State.raise_cur (e : FaultCause) : (s.raise e).cur = s.cur := rfl
@[simp] theorem State.raise_pending (e : FaultCause) : (s.raise e).pending = s.pending := rfl
@[simp] theorem State.raise_resetIn (e : FaultCause) : (s.raise e).resetIn = s.resetIn := rfl
@[simp] theorem State.raise_choices (e : FaultCause) : (s.raise e).choices = s.choices := rfl
@[simp] theorem State.raise_slot (e : FaultCause) (m : Fin 4) : (s.raise e).slot m = s.slot m := rfl
@[simp] theorem State.raise_active (e : FaultCause) (m : Fin 4) : (s.raise e).active m = s.active m := rfl
@[simp] theorem State.raise_muted (e : FaultCause) (m : Fin 4) : (s.raise e).muted m = s.muted m := rfl
@[simp] theorem State.raise_activeNibble (e : FaultCause) : (s.raise e).activeNibble = s.activeNibble := rfl
@[simp] theorem State.raise_trackStart (e : FaultCause) (i : Byte) : (s.raise e).trackStart i = s.trackStart i := rfl

@[simp] theorem State.setTempo_ch (t : Byte) : (s.setTempo t).ch = s.ch := rfl
@[simp] theorem State.setTempo_mask (t : Byte) : (s.setTempo t).mask = s.mask := rfl
@[simp] theorem State.setTempo_tickEnable (t : Byte) : (s.setTempo t).tickEnable = s.tickEnable := rfl
@[simp] theorem State.setTempo_trackCount (t : Byte) : (s.setTempo t).trackCount = s.trackCount := rfl
@[simp] theorem State.setTempo_trackBase (t : Byte) : (s.setTempo t).trackBase = s.trackBase := rfl
@[simp] theorem State.setTempo_osc (t : Byte) : (s.setTempo t).osc = s.osc := rfl
@[simp] theorem State.setTempo_song (t : Byte) : (s.setTempo t).song = s.song := rfl
@[simp] theorem State.setTempo_params (t : Byte) : (s.setTempo t).params = s.params := rfl
@[simp] theorem State.setTempo_phase (t : Byte) : (s.setTempo t).phase = s.phase := rfl
@[simp] theorem State.setTempo_cur (t : Byte) : (s.setTempo t).cur = s.cur := rfl
@[simp] theorem State.setTempo_pending (t : Byte) : (s.setTempo t).pending = s.pending := rfl
@[simp] theorem State.setTempo_resetIn (t : Byte) : (s.setTempo t).resetIn = s.resetIn := rfl
@[simp] theorem State.setTempo_choices (t : Byte) : (s.setTempo t).choices = s.choices := rfl
@[simp] theorem State.setTempo_tempo (t : Byte) : (s.setTempo t).tempo = t := rfl
@[simp] theorem State.setTempo_chan (t : Byte) (d : Fin 4) : (s.setTempo t).chan d = s.chan d := rfl
@[simp] theorem State.setTempo_curChan (t : Byte) : (s.setTempo t).curChan = s.curChan := rfl
@[simp] theorem State.setTempo_slot (t : Byte) (m : Fin 4) : (s.setTempo t).slot m = s.slot m := rfl
@[simp] theorem State.setTempo_active (t : Byte) (m : Fin 4) : (s.setTempo t).active m = s.active m := rfl
@[simp] theorem State.setTempo_muted (t : Byte) (m : Fin 4) : (s.setTempo t).muted m = s.muted m := rfl
@[simp] theorem State.setTempo_activeNibble (t : Byte) : (s.setTempo t).activeNibble = s.activeNibble := rfl
@[simp] theorem State.setTempo_trackStart (t : Byte) (i : Byte) : (s.setTempo t).trackStart i = s.trackStart i := rfl

@[simp] theorem State.setPhase_ch (p : Phase) : (s.setPhase p).ch = s.ch := rfl
@[simp] theorem State.setPhase_mask (p : Phase) : (s.setPhase p).mask = s.mask := rfl
@[simp] theorem State.setPhase_tickEnable (p : Phase) : (s.setPhase p).tickEnable = s.tickEnable := rfl
@[simp] theorem State.setPhase_tempo (p : Phase) : (s.setPhase p).tempo = s.tempo := rfl
@[simp] theorem State.setPhase_trackCount (p : Phase) : (s.setPhase p).trackCount = s.trackCount := rfl
@[simp] theorem State.setPhase_trackBase (p : Phase) : (s.setPhase p).trackBase = s.trackBase := rfl
@[simp] theorem State.setPhase_osc (p : Phase) : (s.setPhase p).osc = s.osc := rfl
@[simp] theorem State.setPhase_song (p : Phase) : (s.setPhase p).song = s.song := rfl
@[simp] theorem State.setPhase_params (p : Phase) : (s.setPhase p).params = s.params := rfl
@[simp] theorem State.setPhase_cur (p : Phase) : (s.setPhase p).cur = s.cur := rfl
@[simp] theorem State.setPhase_pending (p : Phase) : (s.setPhase p).pending = s.pending := rfl
@[simp] theorem State.setPhase_resetIn (p : Phase) : (s.setPhase p).resetIn = s.resetIn := rfl
@[simp] theorem State.setPhase_choices (p : Phase) : (s.setPhase p).choices = s.choices := rfl
@[simp] theorem State.setPhase_phase (p : Phase) : (s.setPhase p).phase = p := rfl
@[simp] theorem State.setPhase_chan (p : Phase) (d : Fin 4) : (s.setPhase p).chan d = s.chan d := rfl
@[simp] theorem State.setPhase_curChan (p : Phase) : (s.setPhase p).curChan = s.curChan := rfl
@[simp] theorem State.setPhase_slot (p : Phase) (m : Fin 4) : (s.setPhase p).slot m = s.slot m := rfl
@[simp] theorem State.setPhase_active (p : Phase) (m : Fin 4) : (s.setPhase p).active m = s.active m := rfl
@[simp] theorem State.setPhase_muted (p : Phase) (m : Fin 4) : (s.setPhase p).muted m = s.muted m := rfl
@[simp] theorem State.setPhase_activeNibble (p : Phase) : (s.setPhase p).activeNibble = s.activeNibble := rfl
@[simp] theorem State.setPhase_trackStart (p : Phase) (i : Byte) : (s.setPhase p).trackStart i = s.trackStart i := rfl

@[simp] theorem State.setOscFreq_ch (n : Fin 4) (v : Word) : (s.setOscFreq n v).ch = s.ch := rfl
@[simp] theorem State.setOscFreq_mask (n : Fin 4) (v : Word) : (s.setOscFreq n v).mask = s.mask := rfl
@[simp] theorem State.setOscFreq_tickEnable (n : Fin 4) (v : Word) : (s.setOscFreq n v).tickEnable = s.tickEnable := rfl
@[simp] theorem State.setOscFreq_tempo (n : Fin 4) (v : Word) : (s.setOscFreq n v).tempo = s.tempo := rfl
@[simp] theorem State.setOscFreq_trackCount (n : Fin 4) (v : Word) : (s.setOscFreq n v).trackCount = s.trackCount := rfl
@[simp] theorem State.setOscFreq_trackBase (n : Fin 4) (v : Word) : (s.setOscFreq n v).trackBase = s.trackBase := rfl
@[simp] theorem State.setOscFreq_song (n : Fin 4) (v : Word) : (s.setOscFreq n v).song = s.song := rfl
@[simp] theorem State.setOscFreq_params (n : Fin 4) (v : Word) : (s.setOscFreq n v).params = s.params := rfl
@[simp] theorem State.setOscFreq_phase (n : Fin 4) (v : Word) : (s.setOscFreq n v).phase = s.phase := rfl
@[simp] theorem State.setOscFreq_cur (n : Fin 4) (v : Word) : (s.setOscFreq n v).cur = s.cur := rfl
@[simp] theorem State.setOscFreq_pending (n : Fin 4) (v : Word) : (s.setOscFreq n v).pending = s.pending := rfl
@[simp] theorem State.setOscFreq_resetIn (n : Fin 4) (v : Word) : (s.setOscFreq n v).resetIn = s.resetIn := rfl
@[simp] theorem State.setOscFreq_choices (n : Fin 4) (v : Word) : (s.setOscFreq n v).choices = s.choices := rfl
@[simp] theorem State.setOscFreq_chan (n : Fin 4) (v : Word) (d : Fin 4) : (s.setOscFreq n v).chan d = s.chan d := rfl
@[simp] theorem State.setOscFreq_curChan (n : Fin 4) (v : Word) : (s.setOscFreq n v).curChan = s.curChan := rfl
@[simp] theorem State.setOscFreq_active (n : Fin 4) (v : Word) (m : Fin 4) : (s.setOscFreq n v).active m = s.active m := rfl
@[simp] theorem State.setOscFreq_muted (n : Fin 4) (v : Word) (m : Fin 4) : (s.setOscFreq n v).muted m = s.muted m := rfl
@[simp] theorem State.setOscFreq_activeNibble (n : Fin 4) (v : Word) : (s.setOscFreq n v).activeNibble = s.activeNibble := rfl
@[simp] theorem State.setOscFreq_trackStart (n : Fin 4) (v : Word) (i : Byte) : (s.setOscFreq n v).trackStart i = s.trackStart i := rfl

@[simp] theorem State.setOscVol_ch (n : Fin 4) (v : Byte) : (s.setOscVol n v).ch = s.ch := rfl
@[simp] theorem State.setOscVol_mask (n : Fin 4) (v : Byte) : (s.setOscVol n v).mask = s.mask := rfl
@[simp] theorem State.setOscVol_tickEnable (n : Fin 4) (v : Byte) : (s.setOscVol n v).tickEnable = s.tickEnable := rfl
@[simp] theorem State.setOscVol_tempo (n : Fin 4) (v : Byte) : (s.setOscVol n v).tempo = s.tempo := rfl
@[simp] theorem State.setOscVol_trackCount (n : Fin 4) (v : Byte) : (s.setOscVol n v).trackCount = s.trackCount := rfl
@[simp] theorem State.setOscVol_trackBase (n : Fin 4) (v : Byte) : (s.setOscVol n v).trackBase = s.trackBase := rfl
@[simp] theorem State.setOscVol_song (n : Fin 4) (v : Byte) : (s.setOscVol n v).song = s.song := rfl
@[simp] theorem State.setOscVol_params (n : Fin 4) (v : Byte) : (s.setOscVol n v).params = s.params := rfl
@[simp] theorem State.setOscVol_phase (n : Fin 4) (v : Byte) : (s.setOscVol n v).phase = s.phase := rfl
@[simp] theorem State.setOscVol_cur (n : Fin 4) (v : Byte) : (s.setOscVol n v).cur = s.cur := rfl
@[simp] theorem State.setOscVol_pending (n : Fin 4) (v : Byte) : (s.setOscVol n v).pending = s.pending := rfl
@[simp] theorem State.setOscVol_resetIn (n : Fin 4) (v : Byte) : (s.setOscVol n v).resetIn = s.resetIn := rfl
@[simp] theorem State.setOscVol_choices (n : Fin 4) (v : Byte) : (s.setOscVol n v).choices = s.choices := rfl
@[simp] theorem State.setOscVol_chan (n : Fin 4) (v : Byte) (d : Fin 4) : (s.setOscVol n v).chan d = s.chan d := rfl
@[simp] theorem State.setOscVol_curChan (n : Fin 4) (v : Byte) : (s.setOscVol n v).curChan = s.curChan := rfl
@[simp] theorem State.setOscVol_active (n : Fin 4) (v : Byte) (m : Fin 4) : (s.setOscVol n v).active m = s.active m := rfl
@[simp] theorem State.setOscVol_muted (n : Fin 4) (v : Byte) (m : Fin 4) : (s.setOscVol n v).muted m = s.muted m := rfl
@[simp] theorem State.setOscVol_activeNibble (n : Fin 4) (v : Byte) : (s.setOscVol n v).activeNibble = s.activeNibble := rfl
@[simp] theorem State.setOscVol_trackStart (n : Fin 4) (v : Byte) (i : Byte) : (s.setOscVol n v).trackStart i = s.trackStart i := rfl

/-- The register set written is the register set read. -/
@[simp] theorem State.setChan_chan_same (c : Fin 4) (x : Channel) : (s.setChan c x).chan c = x := by
  simp [State.setChan, State.chan]

/-- Writing one channel's register set leaves the others. -/
theorem State.setChan_chan_other {c d : Fin 4} (x : Channel) (h : d ≠ c) :
    (s.setChan c x).chan d = s.chan d := by
  simp only [State.setChan, State.chan, Fin.getElem_fin]
  exact Vector.getElem_set_ne _ _ (fun e => h (Fin.ext e.symm))

@[simp] theorem State.setCur_curChan (x : Channel) : (s.setCur x).curChan = x :=
  State.setChan_chan_same s s.cur x

theorem State.setCur_chan_other {d : Fin 4} (x : Channel) (h : d ≠ s.cur) :
    (s.setCur x).chan d = s.chan d :=
  State.setChan_chan_other s x h

/-- The register sets after a write to the channel in service, all at once. -/
theorem State.setCur_chan (x : Channel) (d : Fin 4) :
    (s.setCur x).chan d = if d = s.cur then x else s.chan d := by
  split
  · next h => subst h; exact State.setChan_chan_same s s.cur x
  · next h => exact State.setCur_chan_other s x h

@[simp] theorem State.setCur_setCur (x y : Channel) : (s.setCur x).setCur y = s.setCur y := by
  simp [State.setCur, State.setChan]

@[simp] theorem State.raise_curChan (e : FaultCause) : (s.raise e).curChan = s.curChan.raise e :=
  State.setCur_curChan s _

/-- The slots after a write to a frequency register. -/
theorem State.setOscFreq_slot (n m : Fin 4) (v : Word) :
    (s.setOscFreq n v).slot m = if m = n then { s.slot n with freq := v } else s.slot m := by
  simp only [State.setOscFreq, State.slot, Fin.getElem_fin, Vector.getElem_set, Fin.ext_iff]
  split <;> split <;> first | rfl | omega

/-- The slots after a write to a volume register. -/
theorem State.setOscVol_slot (n m : Fin 4) (v : Byte) :
    (s.setOscVol n v).slot m = if m = n then { s.slot n with vol := v } else s.slot m := by
  simp only [State.setOscVol, State.slot, Fin.getElem_fin, Vector.getElem_set, Fin.ext_iff]
  split <;> split <;> first | rfl | omega

/-- A state is its register sets and its other fields. -/
theorem State.ch_ext {s t : State} (h : ∀ c, t.chan c = s.chan c) : t.ch = s.ch :=
  Vector.ext fun i hi => h ⟨i, hi⟩

/-- Every channel of a state whose sets are all `x` is `x`. -/
theorem State.chan_replicate {t : State} {x : Channel} (h : t.ch = Vector.replicate 4 x) (c : Fin 4) :
    t.chan c = x := by
  simp [State.chan, h]

@[simp] theorem State.reset_chan (c : Fin 4) : State.reset.chan c = Channel.zero :=
  State.chan_replicate rfl c

/-- The channels after `StopActions` are zero. -/
@[simp] theorem State.stopActions_chan (c : Fin 4) : s.stopActions.chan c = Channel.zero :=
  State.chan_replicate rfl c

/-- The channels after the reset action are zero. -/
@[simp] theorem State.resetAction_chan (c : Fin 4) : s.resetAction.chan c = Channel.zero :=
  State.chan_replicate rfl c

/-- The channels are zero while `play` zeroes the Oscillator Output. -/
@[simp] theorem State.play_chan (image : List Byte) (c : Fin 4) :
    (s.play image).chan c = Channel.zero := State.chan_replicate rfl c

/-- The channels after `play` are the seeded ones. -/
@[simp] theorem State.playSeedStep_chan (c : Fin 4) :
    s.playSeedStep.chan c = s.readHeader.seedChannel c := by
  simp [State.playSeedStep, State.chan]

@[simp] theorem State.playSeedStep_mask : s.playSeedStep.mask = maskAllActive s.mask := rfl
@[simp] theorem State.playSeedStep_tickEnable : s.playSeedStep.tickEnable = true := rfl
@[simp] theorem State.playSeedStep_tempo : s.playSeedStep.tempo = s.params.defaultTempo := rfl
@[simp] theorem State.playSeedStep_trackCount :
    s.playSeedStep.trackCount = s.readHeader.trackCount := rfl
@[simp] theorem State.playSeedStep_trackBase :
    s.playSeedStep.trackBase = s.readHeader.trackBase := rfl
@[simp] theorem State.playSeedStep_osc : s.playSeedStep.osc = s.osc := rfl
@[simp] theorem State.playSeedStep_song : s.playSeedStep.song = s.song := rfl
@[simp] theorem State.playSeedStep_params : s.playSeedStep.params = s.params := rfl
@[simp] theorem State.playSeedStep_phase : s.playSeedStep.phase = .idle := rfl
@[simp] theorem State.playSeedStep_cur : s.playSeedStep.cur = 0 := rfl
@[simp] theorem State.playSeedStep_pending : s.playSeedStep.pending = s.pending := rfl
@[simp] theorem State.playSeedStep_resetIn : s.playSeedStep.resetIn = s.resetIn := rfl
@[simp] theorem State.playSeedStep_choices : s.playSeedStep.choices = s.choices := rfl

section Frames

variable (c : Channel)

@[simp] theorem Channel.setFrame_frame_same {i : Nat} (h : i < 7) (f : Frame) :
    (c.setFrame i f).frame i = f := by
  simp [Channel.setFrame, Channel.frame, h]

theorem Channel.setFrame_frame_other {i j : Nat} (h : j ≠ i) (f : Frame) :
    (c.setFrame i f).frame j = c.frame j := by
  simp [Channel.setFrame, Channel.frame, Ne.symm h]

end Frames

end Sys2Proof.Machine
end

