-- ==== Sys2Proof/Laws/Ops.lean ====
section
/-! SUPPORT. For each shared operation, once, everything it can do. -/

namespace Sys2Proof.Machine

/-- A write to the channel in service leaves everything outside it (47_host_commands.md R279). -/
theorem sameOutside_setCur (s : State) (x : Channel) : SameOutside s (s.setCur x) where
  chan := fun _ h => State.setCur_chan_other s x h
  mask := rfl
  tickEnable := rfl
  tempo := rfl
  trackCount := rfl
  trackBase := rfl
  slot := fun _ => rfl
  read := fun _ => rfl
  song := rfl
  params := rfl
  phase := rfl
  cur := rfl
  pending := rfl
  resetIn := rfl
  choices := rfl

/-- A write to the channel in service, as the claims say it. -/
theorem onlyCur_setCur (s : State) (x : Channel) : OnlyCur s (s.setCur x) x :=
  ⟨sameOutside_setCur s x, State.setCur_curChan s x⟩

/-- `SameOutside` and the channel in service fix the state. -/
theorem OnlyCur.eq {s t : State} {x : Channel} (h : OnlyCur s t x) : t = s.setCur x := by
  obtain ⟨h, hx⟩ := h
  have hch : t.ch = (s.setCur x).ch := by
    refine State.ch_ext fun c => ?_
    rw [State.setCur_chan]
    split
    · next e => subst e; rw [← hx, State.curChan, h.cur]
    · next e => exact h.chan c e
  have hosc : t.osc = s.osc := Vector.ext fun i hi => h.slot ⟨i, hi⟩
  cases t; cases s
  simp only [State.setCur, State.setChan, State.mk.injEq] at *
  exact ⟨hch, h.mask, h.tickEnable, h.tempo, h.trackCount, h.trackBase, hosc, h.song, h.params,
    h.phase, h.cur, h.pending, h.resetIn, h.choices⟩

/-- Taking a fault writes `fault` and `faultCursor` of the channel in service and nothing else
(60_exceptions.md R292). -/
theorem takesFault_raise (s : State) (cause : FaultCause) : TakesFault s (s.raise cause) cause :=
  onlyCur_setCur s _

/-- No cause has the code of "no fault" (60_exceptions.md R291). -/
theorem faultCode_ne_zero (cause : FaultCause) : faultCode cause ≠ 0 := by cases cause <;> decide

/-- The code tells the cause (60_exceptions.md R291). -/
theorem faultCode_injective {a b : FaultCause} (h : faultCode a = faultCode b) : a = b := by
  revert h; cases a <;> cases b <;> decide

/-- Everything an instruction can do: it completes, or its effect is abandoned for a cause, or its
bytes would take the cursor past 0xFFFF. -/
theorem runInstr_spec (n : Nat) (body : State → Except FaultCause State) (s : State) :
    (∃ t, runInstr n body s = .next t ∧ s.curChan.cursor.toNat + n ≤ 0xFFFF ∧
      body (s.setCur (s.curChan.advance n)) = .ok t) ∨
    (∃ cause, runInstr n body s = .next (s.raise cause) ∧ s.curChan.cursor.toNat + n ≤ 0xFFFF ∧
      body (s.setCur (s.curChan.advance n)) = .error cause) ∨
    (runInstr n body s = .next (s.raise .songBounds) ∧ 0xFFFF < s.curChan.cursor.toNat + n) := by
  unfold runInstr
  split
  · next h =>
    split
    · next t e => exact .inl ⟨t, rfl, h, e⟩
    · next c e => exact .inr (.inl ⟨c, rfl, h, e⟩)
  · next h => exact .inr (.inr ⟨rfl, by simpa [Config.cursorMax] using h⟩)

/-- An instruction whose bytes fit and whose effect succeeds completes. -/
theorem runInstr_ok {n : Nat} {body : State → Except FaultCause State} {s t : State}
    (h : s.curChan.cursor.toNat + n ≤ 0xFFFF)
    (e : body (s.setCur (s.curChan.advance n)) = .ok t) : runInstr n body s = .next t := by
  simp [runInstr, Config.cursorMax, h, e]

/-- An instruction whose bytes fit and whose effect is abandoned takes the fault. -/
theorem runInstr_error {n : Nat} {body : State → Except FaultCause State} {s : State}
    {cause : FaultCause} (h : s.curChan.cursor.toNat + n ≤ 0xFFFF)
    (e : body (s.setCur (s.curChan.advance n)) = .error cause) :
    runInstr n body s = .next (s.raise cause) := by
  simp [runInstr, Config.cursorMax, h, e]

/-- A cursor that would pass 0xFFFF raises `SongBounds` (30_encoding.md R103). -/
theorem runInstr_bounds {n : Nat} {body : State → Except FaultCause State} {s : State}
    (h : 0xFFFF < s.curChan.cursor.toNat + n) : runInstr n body s = .next (s.raise .songBounds) := by
  simp [runInstr, Config.cursorMax, Nat.not_le.2 h]

/-- An instruction that only writes registers of its channel: it completes, or `SongBounds`. -/
theorem updateChannel_ok {n : Nat} {f : Channel → Channel} {s : State}
    (h : s.curChan.cursor.toNat + n ≤ 0xFFFF) :
    updateChannel n f s = .next (s.setCur (f (s.curChan.advance n))) :=
  (runInstr_ok (body := fun t => .ok (t.setCur (f t.curChan))) h rfl).trans (by simp)

/-- The cursor after an advance that fits. -/
theorem advance_cursor_toNat {c : Channel} {n : Nat} (h : c.cursor.toNat + n ≤ 0xFFFF) :
    (c.advance n).cursor.toNat = c.cursor.toNat + n := by
  simp only [Channel.advance, BitVec.toNat_add, BitVec.toNat_ofNat]; omega

/-- Everything `TrackStart` can do (20_memory.md R80). -/
theorem trackStart_spec (s : State) (t : Byte) :
    (∃ w, s.trackStart t = .ok w ∧ t.toNat < s.trackCount.toNat ∧
      Memory.read16 s.song (1 + 2 * t.toNat) = some w) ∨
    (s.trackStart t = .error .trackRange ∧ s.trackCount.toNat ≤ t.toNat) ∨
    (s.trackStart t = .error .songBounds ∧ t.toNat < s.trackCount.toNat ∧
      Memory.read16 s.song (1 + 2 * t.toNat) = none) := by
  unfold State.trackStart
  split
  · next h => exact .inr (.inl ⟨rfl, h⟩)
  · next h =>
    split
    · next w e => exact .inl ⟨w, rfl, Nat.lt_of_not_le h, e⟩
    · next e => exact .inr (.inr ⟨rfl, Nat.lt_of_not_le h, e⟩)

/-- Everything `DoCall` can do (45_call_return.md R224). -/
theorem doCall_spec (r t : Byte) (s : State) :
    (s.curChan.sp = 7 ∧ doCall r t s = .error .stackOverflow) ∨
    (s.curChan.sp ≠ 7 ∧ ∃ e, s.trackStart t = .error e ∧ doCall r t s = .error e) ∨
    (s.curChan.sp ≠ 7 ∧ ∃ w, s.trackStart t = .ok w ∧
      doCall r t s = .ok (s.setCur (s.curChan.pushCall r t w))) := by
  unfold doCall
  split
  · next h => exact .inl ⟨h, rfl⟩
  · next h =>
    split
    · next e he => exact .inr (.inl ⟨h, e, he, rfl⟩)
    · next w hw => exact .inr (.inr ⟨h, w, hw, rfl⟩)

/-- Everything RETURN can do after its fetch (45_call_return.md R226). -/
theorem doReturn_spec (s : State) :
    (s.curChan.repeatCounter ≠ 0 ∧ ∃ e, s.trackStart s.curChan.trackId = .error e ∧
      doReturn s = .error e) ∨
    (s.curChan.repeatCounter ≠ 0 ∧ ∃ w, s.trackStart s.curChan.trackId = .ok w ∧
      doReturn s = .ok (s.setCur (s.curChan.restart w))) ∨
    (s.curChan.repeatCounter = 0 ∧ s.curChan.sp ≠ 0 ∧
      doReturn s = .ok (s.setCur s.curChan.popCall)) ∨
    (s.curChan.repeatCounter = 0 ∧ s.curChan.sp = 0 ∧
      doReturn s = .ok (s.setCur { s.curChan with delay := 0xFFFF })) := by
  unfold doReturn
  simp only [Config.exhausted]
  split
  · next h =>
    split
    · next e he => exact .inl ⟨h, e, he, rfl⟩
    · next w hw => exact .inr (.inl ⟨h, w, hw, rfl⟩)
  · next h =>
    split
    · next h' => exact .inr (.inr (.inl ⟨not_not.1 h, h', rfl⟩))
    · next h' => exact .inr (.inr (.inr ⟨not_not.1 h, not_not.1 h', rfl⟩))

/-- Everything `EveryN` can do (46_effect_processors.md R241). -/
theorem everyN_spec (k : Byte) (n : Nat) :
    (n ≤ k.toNat + 1 ∧ everyN k n = (true, 0)) ∨
    (k.toNat + 1 < n ∧ everyN k n = (false, BitVec.ofNat 8 (k.toNat + 1))) := by
  unfold everyN
  split
  · next h => exact .inl ⟨h, rfl⟩
  · next h => exact .inr ⟨Nat.lt_of_not_le h, rfl⟩

/-- Everything the step to the next channel can do (40_tick_routine.md R130). -/
theorem nextChannel_spec (s : State) :
    (s.cur = 3 ∧ s.nextChannel = { s with phase := .autoStopCheck, cur := 0 }) ∨
    (s.cur ≠ 3 ∧ s.nextChannel = { s with phase := .service, cur := s.cur + 1 }) := by
  unfold State.nextChannel
  split
  · next h => exact .inl ⟨h, rfl⟩
  · next h => exact .inr ⟨h, rfl⟩

/-- `clamp` answers inside its bounds. -/
theorem clamp_mem {v lo hi : Int} (h : lo ≤ hi) : lo ≤ clamp v lo hi ∧ clamp v lo hi ≤ hi := by
  unfold clamp; split <;> (try split) <;> omega

end Sys2Proof.Machine
end

