-- ==== Sys2Proof/Laws/Effects.lean ====
section
/-! SUPPORT. What each effect processor can write, and the values of the operand fields it reads. -/

namespace Sys2Proof.Machine

/-! ## The fields of the configuration bytes -/

theorem slidePeriod_eq (c : Channel) : c.slidePeriod = c.slideConfig.toNat % 64 := by
  simp [Channel.slidePeriod, BitVec.extractLsb'_toNat]

theorem glisPeriod_eq (c : Channel) : c.glisPeriod = c.glisConfig.toNat % 128 := by
  simp [Channel.glisPeriod, BitVec.extractLsb'_toNat]

theorem retrigPeriod_eq (c : Channel) : c.retrigPeriod = c.retrigConfig.toNat % 4 := by
  simp [Channel.retrigPeriod, BitVec.extractLsb'_toNat]

theorem retrigIndex_toNat (c : Channel) : c.retrigIndex.toNat = c.retrigConfig.toNat / 4 := by
  have := c.retrigConfig.isLt
  simp [Channel.retrigIndex, BitVec.extractLsb'_toNat, Nat.shiftRight_eq_div_pow]; omega

theorem treviPeriod_toNat (c : Channel) : c.treviPeriod.toNat = c.treviConfig.toNat % 32 := by
  simp [Channel.treviPeriod, BitVec.extractLsb'_toNat]

theorem arpThreshold_toNat (c : Channel) : c.arpThreshold.toNat = c.arpTiming.toNat % 32 := by
  simp [Channel.arpThreshold, BitVec.extractLsb'_toNat]

theorem arpHi_eq (c : Channel) : c.arpHi = c.arpNotes.toNat / 16 := by
  have := c.arpNotes.isLt
  simp [Channel.arpHi, BitVec.extractLsb'_toNat, Nat.shiftRight_eq_div_pow]; omega

theorem arpLo_eq (c : Channel) : c.arpLo = c.arpNotes.toNat % 16 := by
  simp [Channel.arpLo, BitVec.extractLsb'_toNat]

/-! ## Clamping -/

/-- `ClampVol` answers inside 0..63 (46_effect_processors.md R242). -/
theorem clampVol_toNat (v : Int) : ((clampVol v).toNat : Int) = max 0 (min 63 v) := by
  unfold clampVol clamp Config.volMax
  split
  · simp; omega
  · split
    · simp; omega
    · rw [BitVec.toNat_ofInt]; norm_num; omega

/-- `ClampFreq` answers inside 0..9397 (R242). -/
theorem clampFreq_toNat (v : Int) : ((clampFreq v).toNat : Int) = max 0 (min 9397 v) := by
  unfold clampFreq clamp Config.freqMax
  split
  · simp; omega
  · split
    · simp; omega
    · rw [BitVec.toNat_ofInt]; norm_num; omega

/-- An unbounded write wraps at the register's width (R242). -/
theorem ofInt_toNat_add {w : Nat} (x : BitVec w) (d : Int) :
    BitVec.ofInt w (x.toNat + d) = x + BitVec.ofInt w d := by
  rw [BitVec.ofInt_add, BitVec.ofInt_natCast, BitVec.ofNat_toNat, BitVec.setWidth_eq]

/-- Every entry of an admitted Note Table is in range (20_memory.md R76). -/
theorem noteFreq_le {p : Params} (h : p.wf = true) (i : BitVec 6) : (noteFreq p i).toNat ≤ 9397 := by
  simp only [Params.wf, Bool.and_eq_true, List.all_eq_true, decide_eq_true_eq] at h
  exact h.1.2 _ (by simp [noteFreq])

/-- A counter of `EveryN` stays at or below the largest period (R241). -/
theorem everyN_le (k : Byte) {n m : Nat} (h : n ≤ m) : (everyN k n).2.toNat ≤ m := by
  rcases everyN_spec k n with ⟨-, e⟩ | ⟨hlt, e⟩ <;> rw [e]
  · simp
  · rw [BitVec.toNat_ofNat]; omega

/-! ## What each processor writes -/

theorem slide_writes (c : Channel) :
    c.slide = { c with
      frequency := c.slide.frequency, volume := c.slide.volume, slideCount := c.slide.slideCount } := by
  unfold Channel.slide Channel.move
  split
  · rfl
  · dsimp only
    split
    · split <;> rfl
    · rfl

theorem arpCut_writes (p : Params) (c : Channel) :
    c.arpCut p = { c with
      frequency := (c.arpCut p).frequency
      arpTick := (c.arpCut p).arpTick
      arpPhase := (c.arpCut p).arpPhase } := by
  unfold Channel.arpCut
  split
  · rfl
  · split <;> rfl

theorem trevi_writes (c : Channel) :
    c.trevi = { c with
      frequency := c.trevi.frequency
      volume := c.trevi.volume
      treviTick := c.trevi.treviTick
      treviPhase := c.trevi.treviPhase } := by
  unfold Channel.trevi Channel.move
  split
  · rfl
  · dsimp only
    split <;> split <;> rfl

theorem glissando_writes (p : Params) (c : Channel) :
    c.glissando p = { c with
      frequency := (c.glissando p).frequency
      note := (c.glissando p).note
      glisCount := (c.glissando p).glisCount } := by
  unfold Channel.glissando
  split
  · rfl
  · dsimp only
    split <;> rfl

theorem retrigger_writes (p : Params) (c : Channel) :
    c.retrigger p = { c with
      frequency := (c.retrigger p).frequency, retrigCount := (c.retrigger p).retrigCount } := by
  unfold Channel.retrigger
  split
  · rfl
  · dsimp only
    split <;> rfl

/-- The registers that no per-tick action writes: those of the sequencer. -/
structure SameSequencer (c x : Channel) : Prop where
  cursor : x.cursor = c.cursor
  sp : x.sp = c.sp
  stack : x.stack = c.stack
  repeatCounter : x.repeatCounter = c.repeatCounter
  trackId : x.trackId = c.trackId
  fault : x.fault = c.fault
  faultCursor : x.faultCursor = c.faultCursor

theorem SameSequencer.trans {a b c : Channel} (h : SameSequencer a b) (k : SameSequencer b c) :
    SameSequencer a c :=
  ⟨k.1.trans h.1, k.2.trans h.2, k.3.trans h.3, k.4.trans h.4, k.5.trans h.5, k.6.trans h.6,
    k.7.trans h.7⟩

/-- The sequencer's registers as a tuple, to compare two channels at once. -/
theorem SameSequencer.of_eq {c x : Channel}
    (h : (x.cursor, x.sp, x.stack, x.repeatCounter, x.trackId, x.fault, x.faultCursor) =
      (c.cursor, c.sp, c.stack, c.repeatCounter, c.trackId, c.fault, c.faultCursor)) :
    SameSequencer c x := by
  simp only [Prod.mk.injEq] at h
  exact ⟨h.1, h.2.1, h.2.2.1, h.2.2.2.1, h.2.2.2.2.1, h.2.2.2.2.2.1, h.2.2.2.2.2.2⟩

/-- The processors leave the sequencer's registers and `delay` (46_effect_processors.md R263). -/
theorem runEffects_sequencer (p : Params) (c : Channel) :
    SameSequencer c (c.runEffects p) ∧ (c.runEffects p).delay = c.delay := by
  have h1 : SameSequencer c c.slide ∧ c.slide.delay = c.delay := by
    rw [slide_writes c]; exact ⟨.of_eq rfl, rfl⟩
  unfold Channel.runEffects
  generalize c.slide = c1 at *
  have h2 : SameSequencer c1 (c1.arpCut p) ∧ (c1.arpCut p).delay = c1.delay := by
    rw [arpCut_writes p c1]; exact ⟨.of_eq rfl, rfl⟩
  generalize c1.arpCut p = c2 at *
  have h3 : SameSequencer c2 c2.trevi ∧ c2.trevi.delay = c2.delay := by
    rw [trevi_writes c2]; exact ⟨.of_eq rfl, rfl⟩
  generalize c2.trevi = c3 at *
  have h4 : SameSequencer c3 (c3.glissando p) ∧ (c3.glissando p).delay = c3.delay := by
    rw [glissando_writes p c3]; exact ⟨.of_eq rfl, rfl⟩
  generalize c3.glissando p = c4 at *
  have h5 : SameSequencer c4 (c4.retrigger p) ∧ (c4.retrigger p).delay = c4.delay := by
    rw [retrigger_writes p c4]; exact ⟨.of_eq rfl, rfl⟩
  exact ⟨h1.1.trans (h2.1.trans (h3.1.trans (h4.1.trans h5.1))),
    h5.2.trans (h4.2.trans (h3.2.trans (h2.2.trans h1.2)))⟩

/-- The delay counter's tick leaves the sequencer's other registers (40_tick_routine.md R133). -/
theorem countDown_sequencer (c : Channel) : SameSequencer c c.countDown := by
  unfold Channel.countDown
  split <;> exact ⟨rfl, rfl, rfl, rfl, rfl, rfl, rfl⟩

end Sys2Proof.Machine
end

