-- ==== Sys2Proof/Laws/Exec.lean ====
section
/-! SUPPORT. What an instruction can do, said once for all of them. -/

namespace Sys2Proof.Machine

/-- The registers that no instruction writes, and the one phase that only a NOTE resets
(42_setup_fx.md R183, 41_note.md R155). -/
structure KeptByInstr (c x : Channel) : Prop where
  fault : x.fault = c.fault
  faultCursor : x.faultCursor = c.faultCursor
  slideCount : x.slideCount = c.slideCount
  glisCount : x.glisCount = c.glisCount
  retrigCount : x.retrigCount = c.retrigCount
  arpPhase : x.arpPhase = c.arpPhase ∨ x.arpPhase = 0

/-- The registers only CALL, CALL_REPEAT and RETURN write (45_call_return.md R229). -/
structure SameCallRegs (c x : Channel) : Prop where
  sp : x.sp = c.sp
  stack : x.stack = c.stack
  repeatCounter : x.repeatCounter = c.repeatCounter
  trackId : x.trackId = c.trackId

/-- DELAY and LONG_DELAY. -/
def isDelay : Instr → Prop
  | .delay _ | .longDelay _ _ => True
  | _ => False

/-- Everything an instruction can do to a state. -/
inductive InstrOutcome (i : Instr) (s : State) : State → Prop
  /-- It takes a fault. -/
  | fault (cause : FaultCause) : InstrOutcome i s (s.raise cause)
  /-- It writes registers of its channel and goes on to the next instruction. -/
  | plain (x : Channel) (fits : s.curChan.cursor.toNat + i.size ≤ 0xFFFF)
      (cursor : x.cursor.toNat = s.curChan.cursor.toNat + i.size) (size : 0 < i.size)
      (kept : KeptByInstr s.curChan x) (call : SameCallRegs s.curChan x)
      (delay : x.delay = s.curChan.delay ∨ isDelay i) : InstrOutcome i s (s.setCur x)
  /-- SET_TEMPO writes `G.tempo`. -/
  | tempo (v : Byte) (isTempo : i = .setTempo v) (ne : v ≠ 0)
      (fits : s.curChan.cursor.toNat + 2 ≤ 0xFFFF) :
      InstrOutcome i s ((s.setCur (s.curChan.advance 2)).setTempo v)
  /-- A call enters a track. -/
  | call (r t : Byte) (w : Word) (isCall : i = .call t ∧ r = 0 ∨ i = .callRepeat r t)
      (fits : s.curChan.cursor.toNat + i.size ≤ 0xFFFF) (size : 0 < i.size)
      (depth : s.curChan.sp ≠ 7) (start : s.trackStart t = .ok w) :
      InstrOutcome i s (s.setCur ((s.curChan.advance i.size).pushCall r t w))
  /-- RETURN restarts the current track. -/
  | restart (w : Word) (isRet : i = .ret) (again : s.curChan.repeatCounter ≠ 0)
      (start : s.trackStart s.curChan.trackId = .ok w) :
      InstrOutcome i s (s.setCur ((s.curChan.advance 1).restart w))
  /-- RETURN pops a frame. -/
  | pop (isRet : i = .ret) (last : s.curChan.repeatCounter = 0) (live : s.curChan.sp ≠ 0) :
      InstrOutcome i s (s.setCur (s.curChan.advance 1).popCall)
  /-- RETURN ends the start track. -/
  | exhaust (isRet : i = .ret) (last : s.curChan.repeatCounter = 0) (empty : s.curChan.sp = 0) :
      InstrOutcome i s (s.setCur { s.curChan.advance 1 with delay := 0xFFFF })

/-- An instruction over `updateChannel` whose effect keeps what instructions keep. -/
theorem updateChannel_outcome {i : Instr} {n : Nat} {f : Channel → Channel} (s : State)
    (hn : n = i.size) (h0 : 0 < n) (hc : ∀ c, (f c).cursor = c.cursor)
    (hk : ∀ c, KeptByInstr c (f c)) (hr : ∀ c, SameCallRegs c (f c))
    (hd : ∀ c, (f c).delay = c.delay ∨ isDelay i) :
    ∃ t, updateChannel n f s = .next t ∧ InstrOutcome i s t := by
  by_cases h : s.curChan.cursor.toNat + n ≤ 0xFFFF
  · refine ⟨_, updateChannel_ok h, ?_⟩
    have k := hk (s.curChan.advance n)
    have r := hr (s.curChan.advance n)
    refine .plain _ (hn ▸ h) ?_ (hn ▸ h0) ⟨k.1, k.2, k.3, k.4, k.5, k.6⟩ ⟨r.1, r.2, r.3, r.4⟩
      (hd (s.curChan.advance n))
    rw [hc, ← hn]; exact advance_cursor_toNat h
  · exact ⟨_, runInstr_bounds (Nat.lt_of_not_le h), .fault _⟩

/-- An instruction over `updateChannel` whose effect writes none of the kept registers. -/
theorem setup_outcome {i : Instr} {n : Nat} {f : Channel → Channel} (s : State)
    (hn : n = i.size) (h0 : 0 < n)
    (hf : ∀ c, KeptByInstr c (f c) ∧ SameCallRegs c (f c) ∧ (f c).cursor = c.cursor ∧
      ((f c).delay = c.delay ∨ isDelay i)) :
    ∃ t, updateChannel n f s = .next t ∧ InstrOutcome i s t :=
  updateChannel_outcome s hn h0 (fun c => (hf c).2.2.1) (fun c => (hf c).1) (fun c => (hf c).2.1)
    (fun c => (hf c).2.2.2)

theorem noteOn_kept (p : Params) (n : BitVec 6) (c : Channel) :
    KeptByInstr c (Channel.noteOn p n c) ∧ SameCallRegs c (Channel.noteOn p n c) ∧
      (Channel.noteOn p n c).cursor = c.cursor ∧ (Channel.noteOn p n c).delay = c.delay := by
  unfold Channel.noteOn Channel.noteTreviPolicy Channel.noteArpReset
  cases p.treviRetrig <;> dsimp only <;> split <;>
    exact ⟨⟨rfl, rfl, rfl, rfl, rfl, by simp⟩, ⟨rfl, rfl, rfl, rfl⟩, rfl, rfl⟩

/-- CALL and CALL_REPEAT. -/
theorem doCall_outcome {i : Instr} {n : Nat} {r t : Byte} (s : State) (hn : n = i.size) (h0 : 0 < n)
    (hi : i = .call t ∧ r = 0 ∨ i = .callRepeat r t) :
    ∃ u, runInstr n (doCall r t) s = .next u ∧ InstrOutcome i s u := by
  rcases runInstr_spec n (doCall r t) s with ⟨u, h, hfit, hb⟩ | ⟨c, h, -, -⟩ | ⟨h, -⟩
  · refine ⟨u, h, ?_⟩
    rcases doCall_spec r t (s.setCur (s.curChan.advance n)) with
      ⟨-, e⟩ | ⟨-, _, -, e⟩ | ⟨hsp, w, hw, e⟩
    · rw [hb] at e; cases e
    · rw [hb] at e; cases e
    · rw [hb] at e; cases e
      rw [State.setCur_setCur, State.setCur_curChan]
      subst hn
      exact .call r t w hi hfit h0 (by simpa [Channel.advance] using hsp) hw
  · exact ⟨_, h, .fault c⟩
  · exact ⟨_, h, .fault _⟩

/-- RETURN. -/
theorem doReturn_outcome (s : State) :
    ∃ u, runInstr 1 doReturn s = .next u ∧ InstrOutcome .ret s u := by
  rcases runInstr_spec 1 doReturn s with ⟨u, h, -, hb⟩ | ⟨c, h, -, -⟩ | ⟨h, -⟩
  · refine ⟨u, h, ?_⟩
    have hs := doReturn_spec (s.setCur (s.curChan.advance 1))
    simp only [State.setCur_curChan, State.setCur_setCur, State.setCur_trackStart] at hs
    rcases hs with ⟨-, _, -, e⟩ | ⟨h1, w, hw, e⟩ | ⟨h1, h2, e⟩ | ⟨h1, h2, e⟩
    · rw [hb] at e; cases e
    · rw [hb] at e; cases e; exact .restart w rfl h1 hw
    · rw [hb] at e; cases e; exact .pop rfl h1 h2
    · rw [hb] at e; cases e; exact .exhaust rfl h1 h2
  · exact ⟨_, h, .fault c⟩
  · exact ⟨_, h, .fault _⟩

/-- Every instruction answers a next state, one of those of `InstrOutcome`. -/
theorem exec_outcome (i : Instr) (s : State) : ∃ t, exec i s = .next t ∧ InstrOutcome i s t := by
  cases i with
  | note n =>
    refine setup_outcome (f := Channel.noteOn s.params n) s rfl Nat.one_pos fun c => ?_
    obtain ⟨h1, h2, h3, h4⟩ := noteOn_kept s.params n c
    exact ⟨h1, h2, h3, .inl h4⟩
  | setTempo v =>
    unfold exec execSetTempo
    rcases runInstr_spec 2 (fun u => if v = 0 then .error .tempoZero else .ok (u.setTempo v)) s with
      ⟨u, h, hfit, hb⟩ | ⟨c, h, -, -⟩ | ⟨h, -⟩
    · refine ⟨u, h, ?_⟩
      split at hb
      · cases hb
      · next hv => cases hb; exact .tempo v rfl hv hfit
    · exact ⟨_, h, .fault c⟩
    · exact ⟨_, h, .fault _⟩
  | reservedFx op =>
    unfold exec execReservedFx
    rcases runInstr_spec 1 (fun _ => .error .reservedFx) s with ⟨u, h, hfit, hb⟩ | ⟨c, h, -, -⟩ | ⟨h, -⟩
    · cases hb
    · exact ⟨_, h, .fault c⟩
    · exact ⟨_, h, .fault _⟩
  | longDelay k v =>
    unfold exec execLongDelay
    rcases runInstr_spec (1 + k)
      (fun u =>
        let d := v.toNat + Config.longDelayBias
        if Config.exhausted.toNat ≤ d then .error .delayRange
        else .ok (u.setCur { u.curChan with delay := BitVec.ofNat 16 d })) s with
      ⟨u, h, hfit, hb⟩ | ⟨c, h, -, -⟩ | ⟨h, -⟩
    · refine ⟨u, h, ?_⟩
      dsimp only at hb
      split at hb
      · cases hb
      · cases hb
        rw [State.setCur_setCur, State.setCur_curChan]
        exact .plain _ hfit (advance_cursor_toNat hfit) (by simp [Instr.size])
          ⟨rfl, rfl, rfl, rfl, rfl, .inl rfl⟩ ⟨rfl, rfl, rfl, rfl⟩ (.inr trivial)
    · exact ⟨_, h, .fault c⟩
    · exact ⟨_, h, .fault _⟩
  | delay d =>
    unfold exec execDelay
    exact setup_outcome s rfl Nat.one_pos fun c =>
      ⟨⟨rfl, rfl, rfl, rfl, rfl, .inl rfl⟩, ⟨rfl, rfl, rfl, rfl⟩, rfl, .inr trivial⟩
  | call t => exact doCall_outcome (i := .call t) s rfl (by decide) (.inl ⟨rfl, rfl⟩)
  | callRepeat r t => exact doCall_outcome (i := .callRepeat r t) s rfl (by decide) (.inr rfl)
  | ret => exact doReturn_outcome s
  | _ =>
    simp only [exec, execSetVolume, execSlideVolOn, execSlideVolAdv, execSlideVolOff,
      execSlideFreqOn, execSlideFreqAdv, execSlideFreqOff, execSetArpeggio, execArpeggioOff,
      execSetRetrig, execRetrigOff, execAddTranspose, execSetTranspose, execTransposeOff,
      execSetTremolo, execTremoloOff, execSetVibrato, execVibratoOff, execSetGlissando,
      execGlissandoOff, execSetNoteCut, execNoteCutOff, execReserved, execData]
    exact setup_outcome s rfl (by omega) fun c =>
      ⟨⟨rfl, rfl, rfl, rfl, rfl, .inl rfl⟩, ⟨rfl, rfl, rfl, rfl⟩, rfl, .inl rfl⟩

/-- Every instruction runs through `runInstr` with its own size. -/
theorem exec_eq_runInstr (i : Instr) (s : State) :
    ∃ body : State → Except FaultCause State, exec i s = runInstr i.size body s := by
  cases i <;>
    simp only [exec, execNote, execSetVolume, execSlideVolOn, execSlideVolAdv, execSlideVolOff,
      execSlideFreqOn, execSlideFreqAdv, execSlideFreqOff, execSetArpeggio, execArpeggioOff,
      execSetRetrig, execRetrigOff, execAddTranspose, execSetTranspose, execTransposeOff,
      execSetTremolo, execTremoloOff, execSetVibrato, execVibratoOff, execSetGlissando,
      execGlissandoOff, execSetNoteCut, execNoteCutOff, execSetTempo, execReservedFx, execDelay,
      execLongDelay, execReserved, execCall, execCallRepeat, execRet, execData, updateChannel,
      Instr.size] <;>
    exact ⟨_, rfl⟩

/-- The inversion of `exec`: an answer is one of `InstrOutcome`. -/
theorem exec_inv {i : Instr} {s t : State} (h : exec i s = .next t) : InstrOutcome i s t := by
  obtain ⟨u, hu, ho⟩ := exec_outcome i s
  rw [h] at hu; cases hu; exact ho

end Sys2Proof.Machine
end

