-- ==== Sys2Proof/Laws/Memory.lean ====
section
/-! SUPPORT. The Song Store: what a read answers, and that every operation keeps the canonical form. -/

namespace Sys2Proof.Machine

theorem Memory.read_ofBytesFrom (image : List Byte) :
    ∀ a b, Memory.read (Memory.ofBytesFrom a image) b = if a ≤ b then image[b - a]? else none := by
  induction image with
  | nil => intro a b; simp [Memory.ofBytesFrom, Memory.read]
  | cons x rest ih =>
    intro a b
    simp only [Memory.ofBytesFrom, Memory.read, ih]
    by_cases h : a = b
    · subst h; simp
    · by_cases h' : a ≤ b
      · obtain ⟨d, rfl⟩ : ∃ d, b = a + 1 + d := ⟨b - (a + 1), by omega⟩
        have e : a + 1 + d - a = d + 1 := by omega
        have e' : a + 1 + d - (a + 1) = d := by omega
        simp [h, h', e, e']
      · have : ¬ a + 1 ≤ b := by omega
        simp [h, h', this]

/-- A read of an installed image answers its byte, and nothing at or past SONG_LEN (20_memory.md R72). -/
@[simp] theorem Memory.read_ofBytes (image : List Byte) (a : Nat) :
    Memory.read (Memory.ofBytes image) a = image[a]? := by
  simp [Memory.ofBytes, Memory.read_ofBytesFrom]

theorem Memory.bytes_ofBytesFrom (image : List Byte) (a : Nat) :
    Memory.bytes (Memory.ofBytesFrom a image) = image := by
  induction image generalizing a with
  | nil => rfl
  | cons x rest ih =>
    simpa [Memory.ofBytesFrom, Memory.bytes] using ih (a + 1)

@[simp] theorem Memory.bytes_ofBytes (image : List Byte) :
    Memory.bytes (Memory.ofBytes image) = image := Memory.bytes_ofBytesFrom image 0

theorem Memory.wfFrom_ofBytesFrom (image : List Byte) (a : Nat) :
    Memory.wfFrom a (Memory.ofBytesFrom a image) = true := by
  induction image generalizing a with
  | nil => rfl
  | cons x rest ih => simp [Memory.ofBytesFrom, Memory.wfFrom, ih]

/-- Installing an image gives the canonical form. -/
@[simp] theorem Memory.wf_ofBytes (image : List Byte) : Memory.wf (Memory.ofBytes image) = true :=
  Memory.wfFrom_ofBytesFrom image 0

/-- Loading bytes over an image gives the canonical form. -/
@[simp] theorem Memory.wf_overlay (m : Memory) (a : Nat) (new : List Byte) :
    Memory.wf (Memory.overlay m a new) = true := Memory.wf_ofBytes _

theorem Memory.eq_ofBytesFrom {m : Memory} {a : Nat} (h : Memory.wfFrom a m = true) :
    Memory.ofBytesFrom a (Memory.bytes m) = m := by
  induction m generalizing a with
  | nil => rfl
  | cons x rest ih =>
    obtain ⟨k, b⟩ := x
    simp only [Memory.wfFrom, Bool.and_eq_true, beq_iff_eq] at h
    obtain ⟨rfl, h⟩ := h
    have := ih h
    simpa [Memory.ofBytesFrom, Memory.bytes] using this

/-- An image in canonical form is the image of its bytes: equal memories are equal data. -/
theorem Memory.eq_ofBytes {m : Memory} (h : Memory.wf m = true) :
    Memory.ofBytes (Memory.bytes m) = m := Memory.eq_ofBytesFrom h

/-- A read of an image in canonical form. -/
theorem Memory.read_wf {m : Memory} (h : Memory.wf m = true) (a : Nat) :
    Memory.read m a = (Memory.bytes m)[a]? := by
  conv_lhs => rw [← Memory.eq_ofBytes h]
  exact Memory.read_ofBytes _ a

/-- The addresses of an image in canonical form rise strictly. -/
theorem Memory.wfFrom_rising {m : Memory} {a : Nat} (h : Memory.wfFrom a m = true) :
    m.Pairwise (fun x y => x.1 < y.1) ∧ ∀ x ∈ m, a ≤ x.1 := by
  induction m generalizing a with
  | nil => simp
  | cons x rest ih =>
    obtain ⟨k, b⟩ := x
    simp only [Memory.wfFrom, Bool.and_eq_true, beq_iff_eq] at h
    obtain ⟨rfl, h⟩ := h
    obtain ⟨h1, h2⟩ := ih h
    refine ⟨List.pairwise_cons.2 ⟨fun y hy => ?_, h1⟩, fun y hy => ?_⟩
    · exact h2 y hy
    · rcases List.mem_cons.1 hy with rfl | hy
      · exact le_rfl
      · exact le_trans (Nat.le_succ _) (h2 y hy)

/-- In an image in canonical form a byte can be read wherever a later one can. -/
theorem Memory.read_isSome_of_le {m : Memory} (h : Memory.wf m = true) {a b : Nat} (hab : a ≤ b)
    {x : Byte} (hb : Memory.read m b = some x) : ∃ y, Memory.read m a = some y := by
  rw [Memory.read_wf h] at hb ⊢
  obtain ⟨hlt, -⟩ := List.getElem?_eq_some_iff.1 hb
  exact ⟨_, List.getElem?_eq_getElem (lt_of_le_of_lt hab hlt)⟩

/-- What `SongRead16` answers (R73). -/
theorem Memory.read16_eq_some {m : Memory} {a : Nat} {w : Word} :
    Memory.read16 m a = some w ↔
      ∃ lo hi, Memory.read m a = some lo ∧ Memory.read m (a + 1) = some hi ∧ w = hi ++ lo := by
  unfold Memory.read16
  split
  · next lo hi h1 h2 => simp [h1, h2, eq_comm]
  · next h =>
    simp only [reduceCtorEq, false_iff]
    rintro ⟨lo, hi, h1, h2, -⟩
    exact h lo hi h1 h2

/-- A stream delivers the bytes that stand at its address, as far as it is allowed to read. -/
theorem Memory.stream_of_reads {m : Memory} {bs : List Byte} :
    ∀ {a n : Nat}, (∀ j (h : j < bs.length), Memory.read m (a + j) = some bs[j]) → bs.length ≤ n →
      ∃ rest, Memory.stream m a n = bs ++ rest := by
  induction bs with
  | nil => intro a n _ _; exact ⟨_, rfl⟩
  | cons b bs ih =>
    intro a n hr hn
    obtain ⟨n, rfl⟩ : ∃ k, n = k + 1 := ⟨n - 1, by simp at hn; omega⟩
    have h0 : Memory.read m a = some b := hr 0 (by simp)
    obtain ⟨rest, hrest⟩ := ih (a := a + 1) (n := n)
      (fun j hj => by
        have := hr (j + 1) (by simpa using hj)
        simpa [Nat.add_assoc, Nat.add_comm 1 j] using this)
      (by simpa using hn)
    exact ⟨rest, by simp [Memory.stream, h0, hrest]⟩

/-- What an overlay reads as where it was written. -/
theorem Memory.read_overlay {m : Memory} {a : Nat} {new : List Byte} {j : Nat} (h : j < new.length) :
    Memory.read (Memory.overlay m a new) (a + j) = some new[j] := by
  have hl : (m.bytes.take a ++ List.replicate (a - m.length) (0 : Byte)).length = a := by
    simp [Memory.bytes]; omega
  rw [Memory.overlay, Memory.read_ofBytes, List.append_assoc, List.getElem?_append_right (by omega)]
  rw [hl, Nat.add_sub_cancel_left, List.getElem?_append_left h, List.getElem?_eq_getElem h]

end Sys2Proof.Machine
end

