-- ==== Sys2Proof/Laws/PerInstr.lean ====
section
/-! SUPPORT. Facts stated instruction by instruction: how long an encoding is. -/

namespace Sys2Proof.Laws

/-- A VLE spelled in `k` bytes is `k` bytes long. -/
theorem encodeVle_length (v : Nat) : ∀ k, (encodeVle v k).length = k
  | 0 => rfl
  | 1 => rfl
  | k + 2 => by simp [encodeVle, encodeVle_length v (k + 1)]

/-- The literal bytes of an instruction, which follow its encoding in the song and are not read. -/
def literalBytes : Instr → Nat
  | .data _ len => len.toNat
  | _ => 0

namespace EncodeLength

/-- The encoding, with the literal bytes of DATA, is as long as the instruction is said to be
(30_encoding.md R102). -/
def Statement (i : Instr) : Prop := (encode i).length + literalBytes i = i.size

theorem note (n : BitVec 6) : Statement (.note n) := rfl

theorem setVolume (v : Byte) : Statement (.setVolume v) := rfl

theorem slideVolOn (a : Byte) : Statement (.slideVolOn a) := rfl

theorem slideVolAdv (a b : Byte) : Statement (.slideVolAdv a b) := rfl

theorem slideVolOff : Statement (.slideVolOff) := rfl

theorem slideFreqOn (a : Byte) : Statement (.slideFreqOn a) := rfl

theorem slideFreqAdv (a b : Byte) : Statement (.slideFreqAdv a b) := rfl

theorem slideFreqOff : Statement (.slideFreqOff) := rfl

theorem setArpeggio (a b : Byte) : Statement (.setArpeggio a b) := rfl

theorem arpeggioOff : Statement (.arpeggioOff) := rfl

theorem setRetrig (a : Byte) : Statement (.setRetrig a) := rfl

theorem retrigOff : Statement (.retrigOff) := rfl

theorem addTranspose (a : Byte) : Statement (.addTranspose a) := rfl

theorem setTranspose (a : Byte) : Statement (.setTranspose a) := rfl

theorem transposeOff : Statement (.transposeOff) := rfl

theorem setTremolo (a b : Byte) : Statement (.setTremolo a b) := rfl

theorem tremoloOff : Statement (.tremoloOff) := rfl

theorem setVibrato (a b : Byte) : Statement (.setVibrato a b) := rfl

theorem vibratoOff : Statement (.vibratoOff) := rfl

theorem setGlissando (a : Byte) : Statement (.setGlissando a) := rfl

theorem glissandoOff : Statement (.glissandoOff) := rfl

theorem setNoteCut (a : Byte) : Statement (.setNoteCut a) := rfl

theorem noteCutOff : Statement (.noteCutOff) := rfl

theorem setTempo (a : Byte) : Statement (.setTempo a) := rfl

theorem reservedFx (a : Byte) : Statement (.reservedFx a) := rfl

theorem delay (d : Nat) : Statement (.delay d) := rfl

theorem call (a : Byte) : Statement (.call a) := rfl

theorem callRepeat (a b : Byte) : Statement (.callRepeat a b) := rfl

theorem ret : Statement (.ret) := rfl

theorem longDelay (k : Nat) (v : Word) : Statement (.longDelay k v) := by
  simp [Statement, encode, literalBytes, Instr.size, encodeVle_length]; omega

theorem reserved (op : Byte) (operands : List Byte) : Statement (.reserved op operands) := by
  simp [Statement, encode, literalBytes, Instr.size]; omega

theorem data (k : Nat) (len : Word) : Statement (.data k len) := by
  simp [Statement, encode, literalBytes, Instr.size, encodeVle_length]; omega

end EncodeLength

end Sys2Proof.Laws
end

