-- ==== Sys2Proof/Laws/RunState.lean ====
section
/-! SUPPORT. The run states of the block: which there are, and that the stopped state excludes the
others. -/

namespace Sys2Proof.Machine

/-- In every state of a run the block is stopped, playing, paused or in the fourth combination
(60_exceptions.md R314). -/
theorem runState_of_inv {s : State} (h : RunStateInv s) :
    s.isStopped ∨ s.isTickingStopped ∨ s.isPlaying ∨ s.isPaused := by
  obtain ⟨hn, hz, -, -⟩ := h
  cases ht : s.tickEnable <;> rcases hn with hn | hn
  · exact .inl ⟨hn, ht, hz hn⟩
  · exact .inr (.inr (.inr ⟨hn, ht⟩))
  · exact .inr (.inl ⟨hn, ht⟩)
  · exact .inr (.inr (.inl ⟨hn, ht⟩))

/-- The stopped state is none of the other three (R314). -/
theorem State.isStopped.exclusive {s : State} (h : s.isStopped) :
    ¬s.isTickingStopped ∧ ¬s.isPlaying ∧ ¬s.isPaused := by
  obtain ⟨hn, ht, -⟩ := h
  simp [isTickingStopped, isPlaying, isPaused, hn, ht]

theorem isStopped_reset : State.reset.isStopped := ⟨by decide, rfl, by decide⟩

end Sys2Proof.Machine
end

