-- ==== Sys2Proof/Laws/Step.lean ====
section
/-! SUPPORT. What a step does in each phase, and what runs of several steps do. -/

namespace Sys2Proof.Machine

section Phases

variable {s : State}

theorem step_reset (h : s.resetIn = true) : step s = .next s.resetAction := by simp [step, h]

theorem step_idle (h : s.resetIn = false) (hp : s.phase = .idle) : step s = .next s.idleStep := by
  simp [step, h, hp]

theorem step_service (h : s.resetIn = false) (hp : s.phase = .service) :
    step s = .next s.serviceStep := by simp [step, h, hp]

theorem step_sequence (h : s.resetIn = false) (hp : s.phase = .sequence) :
    step s = .next s.sequenceStep := by simp [step, h, hp]

theorem step_interpret (h : s.resetIn = false) (hp : s.phase = .interpret) :
    step s = interpretStep s := by simp [step, h, hp]

theorem step_loopTest (h : s.resetIn = false) (hp : s.phase = .loopTest) :
    step s = .next s.loopTestStep := by simp [step, h, hp]

theorem step_publishFreq (h : s.resetIn = false) (hp : s.phase = .publishFreq) :
    step s = .next s.publishFreqStep := by simp [step, h, hp]

theorem step_publishVol (h : s.resetIn = false) (hp : s.phase = .publishVol) :
    step s = .next s.publishVolStep := by simp [step, h, hp]

theorem step_autoStopCheck (h : s.resetIn = false) (hp : s.phase = .autoStopCheck) :
    step s = .next s.autoStopStep := by simp [step, h, hp]

theorem step_silenceFreq {k : Silencing} (h : s.resetIn = false) (hp : s.phase = .silenceFreq k) :
    step s = .next (s.silenceFreqStep k) := by simp [step, h, hp]

theorem step_silenceVol {k : Silencing} (h : s.resetIn = false) (hp : s.phase = .silenceVol k) :
    step s = .next (s.silenceVolStep k) := by simp [step, h, hp]

theorem step_playSeed (h : s.resetIn = false) (hp : s.phase = .playSeed) :
    step s = .next s.playSeedStep := by simp [step, h, hp]

end Phases

/-- Everything one turn of the interpreter loop can do: a fault of the fetch, or what an instruction can
do; it then stands at the loop's test. -/
theorem interpretStep_spec (s : State) :
    ∃ t, interpretStep s = .next (t.setPhase .loopTest) ∧
      ((∃ cause, t = s.raise cause) ∨ ∃ i, InstrOutcome i s t) := by
  unfold interpretStep
  split
  · next i n h =>
    obtain ⟨t, ht, ho⟩ := exec_outcome i s
    exact ⟨t, by rw [ht]; rfl, .inr ⟨i, ho⟩⟩
  · exact ⟨_, rfl, .inl ⟨_, rfl⟩⟩

/-- An instruction leaves the register sets of the other channels. -/
theorem InstrOutcome.chan_other {i : Instr} {s t : State} (h : InstrOutcome i s t) {c : Fin 4}
    (hc : c ≠ s.cur) : t.chan c = s.chan c := by
  cases h <;> simp [State.setCur_chan_other _ _ hc, State.raise]

/-- What every instruction leaves, field by field. -/
theorem InstrOutcome.kept {i : Instr} {s t : State} (h : InstrOutcome i s t) :
    t.mask = s.mask ∧ t.tickEnable = s.tickEnable ∧ t.trackCount = s.trackCount ∧
      t.trackBase = s.trackBase ∧ t.osc = s.osc ∧ t.song = s.song ∧ t.params = s.params ∧
      t.phase = s.phase ∧ t.cur = s.cur ∧ t.pending = s.pending ∧ t.resetIn = s.resetIn ∧
      t.choices = s.choices := by
  cases h <;> exact ⟨rfl, rfl, rfl, rfl, rfl, rfl, rfl, rfl, rfl, rfl, rfl, rfl⟩

/-! ## The Oscillator Output -/

theorem setOscFreq_slot (s : State) (n m : Fin 4) (v : Word) :
    (s.setOscFreq n v).slot m = if m = n then { s.slot n with freq := v } else s.slot m := by
  unfold State.setOscFreq State.slot
  simp only [Fin.getElem_fin, Vector.getElem_set]
  split
  · next h => rw [if_pos (Fin.ext h.symm)]
  · next h => rw [if_neg (fun e => h (by rw [e]))]

theorem setOscVol_slot (s : State) (n m : Fin 4) (v : Byte) :
    (s.setOscVol n v).slot m = if m = n then { s.slot n with vol := v } else s.slot m := by
  unfold State.setOscVol State.slot
  simp only [Fin.getElem_fin, Vector.getElem_set]
  split
  · next h => rw [if_pos (Fin.ext h.symm)]
  · next h => rw [if_neg (fun e => h (by rw [e]))]

@[simp] theorem nextChannel_slot (s : State) (n : Fin 4) : s.nextChannel.slot n = s.slot n := by
  unfold State.nextChannel; split <;> rfl

@[simp] theorem nextChannel_chan (s : State) (n : Fin 4) : s.nextChannel.chan n = s.chan n := by
  unfold State.nextChannel; split <;> rfl

/-- Starting an event leaves the parameters. -/
@[simp] theorem startEvent_params (s : State) (e : Event) : (s.startEvent e).params = s.params := by
  cases e
  · show s.beginTick.params = _
    unfold State.beginTick; split <;> rfl
  all_goals rfl

/-! ## Runs -/

theorem stepN_succ {s t : State} {n : Nat} (h : step s = .next t) : stepN (n + 1) s = stepN n t := by
  simp [stepN, h]

theorem stepN_add {n m : Nat} {s t : State} (h : stepN n s = .next t) :
    stepN (n + m) s = stepN m t := by
  induction n generalizing s with
  | zero => cases h; simp
  | succ n ih =>
    rw [Nat.succ_add]
    simp only [stepN] at *
    split at h
    · exact ih h
    · cases h
    · cases h

/-- The eight steps that zero the Oscillator Output zero all of it and change nothing else; then a stop
is over and `play` goes on. -/
theorem stepN_silence (s : State) (k : Silencing) (h : s.resetIn = false)
    (hp : s.phase = .silenceFreq k) (hc : s.cur = 0) :
    stepN 8 s =
      .next { s with
        osc := Vector.replicate 4 { freq := 0, vol := 0 }, phase := k.after, cur := 0 } := by
  obtain ⟨ch, mask, te, tempo, tc, tb, osc, song, params, phase, cur, pending, rin, choices⟩ := s
  dsimp only at h hp hc
  subst h hp hc
  simp only [stepN, step, State.silenceFreqStep, State.silenceVolStep, State.setOscFreq,
    State.setOscVol, State.slot, State.setPhase]
  simp
  ext i hi <;> (rcases i with _ | _ | _ | _ | i) <;> simp <;> try omega

/-- The rest of `play` after its first micro-step: the Oscillator Output, then the header and the
channels (47_host_commands.md R271). -/
theorem stepN_play (s : State) (h : s.resetIn = false) (hp : s.phase = .silenceFreq .play)
    (hc : s.cur = 0) :
    stepN 9 s =
      .next { s with
        osc := Vector.replicate 4 { freq := 0, vol := 0 }, phase := .playSeed, cur := 0 }.playSeedStep := by
  rw [show 9 = 8 + (0 + 1) from rfl, stepN_add (stepN_silence s .play h hp hc)]
  exact stepN_succ (step_playSeed h rfl)

end Sys2Proof.Machine
end

