-- ==== Sys2Proof/Tests/Slice0.lean ====
section
/-! SUPPORT. Tests: ill-formed terms are refused, the words the spec writes out decode as it says, each
instruction on a small state, and for every statement with hypotheses a state that meets them. The
expected values are those of the spec's rules, examples and vectors (95_test_vectors.md). -/

open Sys2Proof Sys2Proof.Machine

namespace Sys2Proof.Tests

/-! ## Well-formedness -/

theorem test_wf_refuses_assigned_fx : (Instr.reservedFx 0x40).wf Params.default = false := by decide
theorem test_wf_refuses_tempo_fx : (Instr.reservedFx 0x9D).wf Params.default = false := by decide
theorem test_wf_refuses_delay_0 : (Instr.delay 0).wf Params.default = false := by decide
theorem test_wf_refuses_delay_65 : (Instr.delay 65).wf Params.default = false := by decide
theorem test_wf_refuses_empty_vle : (Instr.longDelay 0 0).wf Params.default = false := by decide
theorem test_wf_refuses_short_vle : (Instr.longDelay 1 128).wf Params.default = false := by decide
theorem test_wf_refuses_long_delay_op : (Instr.reserved 224 []).wf Params.default = false := by decide
theorem test_wf_refuses_call_op : (Instr.reserved 252 []).wf Params.default = false := by decide
theorem test_wf_refuses_operand_count : (Instr.reserved 234 []).wf Params.default = false := by decide
theorem test_wf_refuses_empty_data : (Instr.data 0 0).wf Params.default = false := by decide
theorem test_wf_refuses_short_data : (Instr.data 2 16384).wf Params.default = false := by decide

/-! ## Decoding: words written out from 30_encoding.md R101, R106, R108 -/

/-- What the decoder reads at the default parameters. -/
def dec (bs : List Byte) : Decoded := decode Params.default bs

theorem test_decode_note : dec [0b00001100] = .ok (.note 12) 1 ∧ dec [0x3F] = .ok (.note 63) 1 := by
  decide
theorem test_decode_setVolume : dec [0x40, 0x28] = .ok (.setVolume 40) 2 := by decide
theorem test_decode_slideVolOn : dec [0x41, 0xFE] = .ok (.slideVolOn 0xFE) 2 := by decide
theorem test_decode_slideVolAdv : dec [0x42, 0xFE, 0x01] = .ok (.slideVolAdv 0xFE 1) 3 := by decide
theorem test_decode_slideVolOff : dec [0x43] = .ok .slideVolOff 1 := by decide
theorem test_decode_slideFreqOn : dec [0x44, 0x0A] = .ok (.slideFreqOn 10) 2 := by decide
theorem test_decode_slideFreqAdv : dec [0x45, 0x9C, 0x83] = .ok (.slideFreqAdv 0x9C 0x83) 3 := by
  decide
theorem test_decode_slideFreqOff : dec [0x46] = .ok .slideFreqOff 1 := by decide
theorem test_decode_setArpeggio : dec [0x47, 0x43, 0x22] = .ok (.setArpeggio 0x43 0x22) 3 := by decide
theorem test_decode_arpeggioOff : dec [0x48] = .ok .arpeggioOff 1 := by decide
theorem test_decode_setRetrig : dec [0x49, 0xA1] = .ok (.setRetrig 0xA1) 2 := by decide
theorem test_decode_retrigOff : dec [0x4A] = .ok .retrigOff 1 := by decide
theorem test_decode_addTranspose : dec [0x4B, 0xFE] = .ok (.addTranspose 0xFE) 2 := by decide
theorem test_decode_setTranspose : dec [0x4C, 0xF4] = .ok (.setTranspose 0xF4) 2 := by decide
theorem test_decode_transposeOff : dec [0x4D] = .ok .transposeOff 1 := by decide
theorem test_decode_setTremolo : dec [0x4E, 0x02, 0x03] = .ok (.setTremolo 2 3) 3 := by decide
theorem test_decode_tremoloOff : dec [0x4F] = .ok .tremoloOff 1 := by decide
theorem test_decode_setVibrato : dec [0x50, 0x05, 0x01] = .ok (.setVibrato 5 1) 3 := by decide
theorem test_decode_vibratoOff : dec [0x51] = .ok .vibratoOff 1 := by decide
theorem test_decode_setGlissando : dec [0x52, 0x83] = .ok (.setGlissando 0x83) 2 := by decide
theorem test_decode_glissandoOff : dec [0x53] = .ok .glissandoOff 1 := by decide
theorem test_decode_setNoteCut : dec [0x54, 0x23] = .ok (.setNoteCut 0x23) 2 := by decide
theorem test_decode_noteCutOff : dec [0x55] = .ok .noteCutOff 1 := by decide
theorem test_decode_setTempo : dec [0x9D, 0x32] = .ok (.setTempo 50) 2 := by decide
theorem test_decode_reservedFx : dec [0x56] = .ok (.reservedFx 0x56) 1 ∧
    dec [0x9C] = .ok (.reservedFx 0x9C) 1 ∧ dec [0x9E] = .ok (.reservedFx 0x9E) 1 := by decide
theorem test_decode_delay : dec [0xA0] = .ok (.delay 1) 1 ∧ dec [0xDF] = .ok (.delay 64) 1 := by decide
theorem test_decode_longDelay : dec [0xE0, 0x81, 0x2B] = .ok (.longDelay 2 171) 3 ∧
    dec [0xE0, 0x83, 0xFF, 0x7F] = .ok (.longDelay 3 65535) 4 ∧
    dec [0xE0, 0x80, 0x05] = .ok (.longDelay 2 5) 3 := by decide
theorem test_decode_reserved : dec [0xE9] = .ok (.reserved 0xE9 []) 1 ∧
    dec [0xEA, 0x55] = .ok (.reserved 0xEA [0x55]) 2 ∧
    dec [0xFB, 0x01, 0x02] = .ok (.reserved 0xFB [1, 2]) 3 := by decide
theorem test_decode_call : dec [0xFC, 0x02] = .ok (.call 2) 2 := by decide
theorem test_decode_callRepeat : dec [0xFD, 0x02, 0x01] = .ok (.callRepeat 2 1) 3 := by decide
theorem test_decode_ret : dec [0xFE] = .ok .ret 1 := by decide
theorem test_decode_data : dec [0xFF, 0x03, 0xDE, 0xAD, 0x42] = .ok (.data 1 3) 5 := by decide

/-- 30_encoding.md R107: the third byte of `84 80 00` raises `VleRange`. -/
theorem test_decode_vle_range : dec [0xE0, 0x84, 0x80, 0x00] = .bad .vleRange ∧
    dec [0xE0, 0x83, 0xFF] = .bad .truncated := by decide

/-- The table numbers bits from the first byte up (spec/opcode_table.json). -/
theorem test_decode_table_word : decodeTableWord 16 0x2840 = some (.setVolume 0x28) ∧
    decodeTableWord 24 0x0102FD = some (.callRepeat 2 1) ∧
    decodeTableWord 8 0xE0 = some (.longDelay 1 0) := by decide

/-! ## Single steps -/

/-- An image of two tracks, with `trackBase` 9: track 0 at cursor 0, where `code` stands, track 1 at
cursor 0x0040. -/
def image (code : List Byte) : List Byte := [2, 0, 0, 0x40, 0, 0, 1, 1, 1] ++ code

/-- Playing `image code`, about to fetch for channel 0, whose registers are `c`. -/
def st (code : List Byte) (c : Channel) : State :=
  { State.reset with
    ch := State.reset.ch.set 0 c
    song := Memory.ofBytes (image code)
    mask := 0xF0
    tickEnable := true
    trackCount := 2
    trackBase := 9
    phase := .interpret }

/-- The next state, where there is one. -/
def next? : Result → Option State
  | .next t => some t
  | _ => none

/-- The channel in service after one step from `st code c`. -/
def ran (code : List Byte) (c : Channel) : Option Channel :=
  (next? (step (st code c))).map State.curChan

/-- A channel with every register 0, its cursor moved. -/
def at' (n : Word) : Channel := { Channel.zero with cursor := n }

/-- 41_note.md R151, Example. -/
theorem test_note : ran [0x0C] { Channel.zero with volSet := 40 } =
    some { at' 1 with volSet := 40, note := 12, frequency := 494, volume := 40 } := by decide

/-- 41_note.md R152: note 3 transposed by -5 is note 0; R151: the arpeggio reset. -/
theorem test_note_clamps : ran [0x03]
    { Channel.zero with transpose := 0xFB, arpTiming := 0x20, arpPhase := 2, arpTick := 7 } =
    some { at' 1 with transpose := 0xFB, arpTiming := 0x20 } := by decide

theorem test_setVolume : ran [0x40, 0xC8] Channel.zero =
    some { at' 2 with volume := 200, volSet := 200 } := by decide
theorem test_slideVolOn : ran [0x41, 0xFE] { Channel.zero with slideConfig := 0xFF } =
    some { at' 2 with slideStep := 0xFE } := by decide
theorem test_slideVolAdv : ran [0x42, 0xFE, 0xC1] Channel.zero =
    some { at' 3 with slideStep := 0xFE, slideConfig := 0x81 } := by decide
theorem test_slideVolOff : ran [0x43] { Channel.zero with slideStep := 5, slideConfig := 0x41 } =
    some { at' 1 with slideConfig := 0x41 } := by decide
theorem test_slideFreqOn : ran [0x44, 0x0A] { Channel.zero with slideConfig := 0xFF } =
    some { at' 2 with slideStep := 10, slideConfig := 0x40 } := by decide
theorem test_slideFreqAdv : ran [0x45, 0x9C, 0x83] Channel.zero =
    some { at' 3 with slideStep := 0x9C, slideConfig := 0xC3 } := by decide
theorem test_slideFreqOff : ran [0x46] { Channel.zero with slideStep := 5, frequency := 9 } =
    some { at' 1 with frequency := 9 } := by decide
theorem test_setArpeggio : ran [0x47, 0x43, 0x22] { Channel.zero with arpTick := 3 } =
    some { at' 3 with arpNotes := 0x43, arpTiming := 0x22, arpTick := 3 } := by decide
theorem test_arpeggioOff : ran [0x48] { Channel.zero with arpNotes := 0x43, arpPhase := 1 } =
    some { at' 1 with arpPhase := 1 } := by decide
theorem test_setRetrig : ran [0x49, 0xA1] Channel.zero = some { at' 2 with retrigConfig := 0xA1 } := by
  decide
theorem test_retrigOff : ran [0x4A] { Channel.zero with retrigConfig := 3, retrigCount := 2 } =
    some { at' 1 with retrigCount := 2 } := by decide
/-- 42_setup_fx.md R172: 3 + (-2) is 1. -/
theorem test_addTranspose : ran [0x4B, 0xFE] { Channel.zero with transpose := 3 } =
    some { at' 2 with transpose := 1 } := by decide
/-- 42_setup_fx.md R172: 127 + 1 wraps to -128. -/
theorem test_addTranspose_wraps : ran [0x4B, 0x01] { Channel.zero with transpose := 127 } =
    some { at' 2 with transpose := 0x80 } := by decide
theorem test_setTranspose : ran [0x4C, 0xF4] { Channel.zero with transpose := 3 } =
    some { at' 2 with transpose := 0xF4 } := by decide
theorem test_transposeOff : ran [0x4D] { Channel.zero with transpose := 3 } = some (at' 1) := by decide
theorem test_setTremolo : ran [0x4E, 0x02, 0xC3] { Channel.zero with treviTick := 1 } =
    some { at' 3 with treviDepth := 2, treviConfig := 0x83, treviTick := 1 } := by decide
theorem test_tremoloOff : ran [0x4F] { Channel.zero with treviDepth := 2, treviConfig := 3 } =
    some { at' 1 with treviConfig := 3 } := by decide
theorem test_setVibrato : ran [0x50, 0x05, 0x01] Channel.zero =
    some { at' 3 with treviDepth := 5, treviConfig := 0x41 } := by decide
theorem test_vibratoOff : ran [0x51] { Channel.zero with treviDepth := 2, frequency := 7 } =
    some { at' 1 with frequency := 7 } := by decide
theorem test_setGlissando : ran [0x52, 0x83] { Channel.zero with glisCount := 1 } =
    some { at' 2 with glisConfig := 0x83, glisCount := 1 } := by decide
theorem test_glissandoOff : ran [0x53] { Channel.zero with glisConfig := 3, note := 4 } =
    some { at' 1 with note := 4 } := by decide
theorem test_setNoteCut : ran [0x54, 0x23] Channel.zero =
    some { at' 2 with arpNotes := 0xFF, arpTiming := 0x23 } := by decide
theorem test_noteCutOff : ran [0x55] { Channel.zero with arpNotes := 0xFF, arpTiming := 0x23 } =
    some { at' 1 with arpTiming := 0x23 } := by decide

/-- 42_setup_fx.md R186: the operand becomes `tempo`; V71: operand 0 faults. -/
theorem test_setTempo : next? (step (st [0x9D, 0x32] Channel.zero)) =
      some { st [0x9D, 0x32] (at' 2) with tempo := 50, phase := .loopTest } ∧
    ran [0x9D, 0x00] Channel.zero = some { Channel.zero with fault := 5 } := by decide

/-- V70: byte 9F at cursor 4. -/
theorem test_reservedFx : ran [0x40, 0x0A, 0x05, 0xA0, 0x9F] (at' 4) =
    some { at' 4 with fault := 2, faultCursor := 4 } := by decide
theorem test_delay : ran [0xA3] Channel.zero = some { at' 1 with delay := 4 } := by decide

/-- 43_delay.md R202: 171 + 129 is 300. -/
theorem test_longDelay : ran [0xE0, 0x81, 0x2B] Channel.zero =
    some { at' 3 with delay := 300 } := by decide
/-- V63: the VLE value 65406 would give the sentinel. -/
theorem test_longDelay_range : ran [0xE0, 0x83, 0xFE, 0x7E] Channel.zero =
    some { Channel.zero with fault := 7 } := by decide
/-- V65: the RESERVED byte 0xEA has one operand by default. -/
theorem test_reserved : ran [0xEA, 0x55] Channel.zero = some (at' 2) := by decide
/-- V66: three literal bytes are passed, which need not lie in the image (44_reserved_and_data.md R213). -/
theorem test_data : ran [0xFF, 0x03] Channel.zero = some (at' 5) := by decide

/-- 45_call_return.md R221, Example: `FC 01` at cursor 0x0010, the track at 0x0040. -/
theorem test_call : ran (List.replicate 16 0 ++ [0xFC, 0x01]) (at' 0x10) =
    some { at' 0x40 with
      sp := 1, trackId := 1
      stack := Channel.zero.stack.set 0 { ret := 0x12, cnt := 0, trk := 0 } } := by decide
/-- V58: track 7 of two. -/
theorem test_call_track_range : ran [0x05, 0xFC, 0x07] (at' 1) =
    some { at' 1 with fault := 4, faultCursor := 1 } := by decide
/-- 45_call_return.md R222, Example. -/
theorem test_callRepeat : ran [0xFD, 0x02, 0x01] Channel.zero =
    some { at' 0x40 with
      sp := 1, trackId := 1, repeatCounter := 2
      stack := Channel.zero.stack.set 0 { ret := 3, cnt := 0, trk := 0 } } := by decide
/-- 45_call_return.md R223: the call at depth 7. -/
theorem test_callRepeat_overflow : ran [0xFD, 0x02, 0x01] { Channel.zero with sp := 7 } =
    some { Channel.zero with sp := 7, fault := 1 } := by decide
/-- 45_call_return.md R226, Example: restart. -/
theorem test_ret_restarts : ran [0xFE] { Channel.zero with repeatCounter := 2, trackId := 1, sp := 1 } =
    some { at' 0x40 with repeatCounter := 1, trackId := 1, sp := 1 } := by decide
/-- 45_call_return.md R226, Example: exhaustion. -/
theorem test_ret_exhausts : ran [0xFE] Channel.zero = some { at' 1 with delay := 0xFFFF } := by decide

/-- V72: an operand outside the image. -/
theorem test_truncated : ran [0x40] Channel.zero = some { Channel.zero with fault := 3 } := by decide

/-- V64: a variable-length integer of more than 16 bits, at cursor 2. -/
theorem test_vle_range : ran [0x01, 0xA0, 0xE0, 0x84, 0x80, 0x00] (at' 2) =
    some { at' 2 with fault := 6, faultCursor := 2 } := by decide

/-! ## Effect processors, one firing each (95_test_vectors.md) -/

/-- V23: 9370 + 100 is clamped to 9397. -/
theorem test_slide : { Channel.zero with slideStep := 100, slideConfig := 0x40, frequency := 9370 }.slide =
    { Channel.zero with slideStep := 100, slideConfig := 0x40, frequency := 9397 } := by decide
/-- V22: volume 1 with step -2, unbounded, is 255. -/
theorem test_slide_wraps : { Channel.zero with slideStep := 0xFE, slideConfig := 0x80, volume := 1 }.slide =
    { Channel.zero with slideStep := 0xFE, slideConfig := 0x80, volume := 255 } := by decide
/-- V32: note 12, transpose +2, into phase 1: NT[18] is 698. -/
theorem test_arpCut : ({ Channel.zero with
      arpNotes := 0x43, arpTiming := 0x20, transpose := 2, note := 12 }.arpCut Params.default).frequency
    = 698 := by decide
/-- V34: a note cut after its threshold. -/
theorem test_noteCut_silences : ({ Channel.zero with
      arpNotes := 0xFF, arpTiming := 0x22, arpTick := 2, note := 10, frequency := 440 }.arpCut
        Params.default) =
    { Channel.zero with arpNotes := 0xFF, arpTiming := 0x22, arpPhase := 1, note := 10 } := by decide
/-- V41: 1 less 2 is clamped to 0. -/
theorem test_tremolo : { Channel.zero with
      treviDepth := 2, treviConfig := 3, treviTick := 1, volume := 1 }.trevi =
    { Channel.zero with treviDepth := 2, treviConfig := 3, treviTick := 2, volume := 0 } := by decide
/-- V53: a note off sounds again. -/
theorem test_glissando : { Channel.zero with glisConfig := 1 }.glissando Params.default =
    { Channel.zero with glisConfig := 1, note := 1, frequency := 262 } := by decide
/-- V54: index 40, every tick. -/
theorem test_retrigger : { Channel.zero with retrigConfig := 0xA1, note := 10 }.retrigger Params.default =
    { Channel.zero with retrigConfig := 0xA1, note := 10, frequency := 2489 } := by decide

/-! ## The tick and the host commands, one step each -/

/-- X11: channel 3 publishes half its volume. -/
theorem test_publish_noise : (next? (step
      { st [] Channel.zero with
        ch := State.reset.ch.set 3 { Channel.zero with volume := 41, frequency := 440 }
        phase := .publishVol, cur := 3 })).map (fun t => t.slot 3) = some { freq := 0, vol := 20 } := by
  decide
/-- R271's order: the song is installed and the channels are zeroed before anything else is written. -/
theorem test_play_first :
    (next? (step { st [] (at' 5) with phase := .idle, pending := [.play [1, 2]] })).map
      (fun t => (t.song, t.curChan, t.trackCount, t.mask, t.phase)) =
    some ([(0, 1), (1, 2)], Channel.zero, 2, 0xF0, .silenceFreq .play) := by decide

/-- A block at the header of `image`, every slot being zero. -/
def stSeed (image : List Byte) : State :=
  { State.reset with song := Memory.ofBytes image, phase := .playSeed }

/-- V75: start tracks 0, 1, 0, 5 of one track. -/
theorem test_play_seeds : (next? (step (stSeed [1, 0, 0, 0, 1, 0, 5, 0xFE]))).map
        (fun t => (t.trackBase, t.mask, (List.finRange 4).map (fun n => (t.chan n).fault))) =
    some (7, 0xF0, [0, 4, 0, 4]) := by decide
/-- V73: an empty image. -/
theorem test_play_empty : (next? (step (stSeed []))).map
        (fun t => (t.trackCount, t.trackBase, (List.finRange 4).map (fun n => (t.chan n).fault))) =
    some (0, 5, [3, 3, 3, 3]) := by decide
/-- The word step fetches is the one placed (log 12). -/
theorem test_withFetchWord : (next? (step (State.reset.withFetchWord 16 0x2840))).map
    (fun t => (t.curChan.volume, t.curChan.cursor)) = some (40, 2) := by decide

/-! ## Witnesses: a state for the hypotheses of each statement, at the ends of their ranges -/

theorem test_wit_DecodeOfEncodeIsTheInstruction :
    (Instr.longDelay 3 0xFFFF).wf Params.default = true ∧ (Instr.longDelay 9 0).wf Params.default = true ∧
    (Instr.delay 64).wf Params.default = true ∧ (Instr.data 1 127).wf Params.default = true ∧
    (Instr.reserved 0xFB [0, 0]).wf Params.default = true ∧
    (Instr.reservedFx 0x9F).wf Params.default = true := by decide

theorem test_wit_DecodedInstructionReencodes :
    decode Params.default [0xE0, 0x80, 0x05, 0x0C] = .ok (.longDelay 2 5) 3 := by decide

theorem test_wit_ProperPrefixIsTruncated :
    (Instr.setVolume 5).wf Params.default = true ∧ 0 < (encode (.setVolume 5)).length ∧
    (Instr.data 3 128).wf Params.default = true ∧ 3 < (encode (.data 3 128)).length := by decide

theorem test_wit_VleIsBigEndianBase128 : (∀ b ∈ ([0x83, 0xFF] : List Byte), 128 ≤ b.toNat) ∧
    (0x7F : Byte).toNat < 128 ∧ (∀ b ∈ ([0x84, 0x80] : List Byte), 128 ≤ b.toNat) ∧
    (0x00 : Byte).toNat < 128 := by decide

theorem test_wit_StepRunsTheDecodedInstruction :
    (st [0x40, 5] Channel.zero).resetIn = false ∧ (st [0x40, 5] Channel.zero).phase = .interpret ∧
    (st [0x40, 5] Channel.zero).fetch = .ok (.setVolume 5) 2 ∧
    ∃ t, exec (.setVolume 5) (st [0x40, 5] Channel.zero) = .next t :=
  ⟨by decide, by decide, by decide, _, rfl⟩

/-- The last byte that can be executed stands at cursor 0xFFFE. -/
def stLast : State := { st [] (at' 0xFFFE) with song := [(9 + 0xFFFE, 0x0C)] }

theorem test_wit_StepRunsTheBytesAtTheCursor :
    stLast.resetIn = false ∧ stLast.phase = .interpret ∧ (Instr.note 12).wf stLast.params = true ∧
    HoldsAt stLast.song (stLast.trackBase.toNat + stLast.curChan.cursor.toNat) (encode (.note 12)) ∧
    stLast.curChan.cursor.toNat + (encode (.note 12)).length ≤ 0xFFFF ∧
    ∃ t, exec (.note 12) stLast = .next t :=
  ⟨by decide, by decide, by decide, by unfold HoldsAt; decide, by decide, _, rfl⟩

theorem test_wit_FetchOutsideTheImageFaults :
    (st [] Channel.zero).resetIn = false ∧ (st [] Channel.zero).phase = .interpret ∧
    Memory.read (st [] Channel.zero).song
      ((st [] Channel.zero).trackBase.toNat + (st [] Channel.zero).curChan.cursor.toNat) = none ∧
    (st [] (at' 0xFFFF)).resetIn = false ∧ (st [] (at' 0xFFFF)).phase = .interpret ∧
    (st [] (at' 0xFFFF)).curChan.cursor = 0xFFFF := by decide

/-- V72: SET_VOLUME without its operand; V64: `84 80 00`. -/
theorem test_wit_FetchOutsideTheImageFaults_later :
    (Instr.setVolume 5).wf (st [0x40] Channel.zero).params = true ∧
    1 < (encode (.setVolume 5)).length ∧
    HoldsAt (st [0x40] Channel.zero).song ((st [0x40] Channel.zero).trackBase.toNat +
      (st [0x40] Channel.zero).curChan.cursor.toNat) ((encode (.setVolume 5)).take 1) ∧
    Memory.read (st [0x40] Channel.zero).song ((st [0x40] Channel.zero).trackBase.toNat +
      (st [0x40] Channel.zero).curChan.cursor.toNat + 1) = none ∧
    (st [0x40] Channel.zero).fetch = .bad .truncated ∧
    (st [0xE0, 0x84, 0x80, 0] Channel.zero).fetch = .bad .vleRange ∧
    0xFFFF ≤ stLast.curChan.cursor.toNat + 1 :=
  ⟨by decide, by decide, by unfold HoldsAt; decide, by decide, by decide, by decide, by decide⟩

theorem test_wit_InstructionsStayInTheirChannel :
    ∃ t, exec (.setTempo 50) (st [] Channel.zero) = .next t ∧ t.tempo ≠ (st [] Channel.zero).tempo :=
  ⟨_, rfl, by decide⟩

/-- `st []` with another register of channel 3 and other mute bits. -/
def stOther : State :=
  { st [] Channel.zero with
    ch := State.reset.ch.set 3 { Channel.zero with volume := 9 }
    mask := 0xFF }

theorem test_wit_InstructionsReadOnlyTheirChannel :
    (st [] Channel.zero).curChan = stOther.curChan ∧ (st [] Channel.zero).song = stOther.song ∧
    (st [] Channel.zero).trackCount = stOther.trackCount ∧
    (st [] Channel.zero).params = stOther.params ∧ (st [] Channel.zero).tempo = stOther.tempo ∧
    st [] Channel.zero ≠ stOther ∧ (∃ t, exec .ret (st [] Channel.zero) = .next t) ∧
    ∃ t, exec .ret stOther = .next t :=
  ⟨by decide, rfl, rfl, rfl, rfl, by decide, ⟨_, rfl⟩, _, rfl⟩

theorem test_wit_OnlyDelaysAndReturnWriteDelay :
    ∃ t, exec (.delay 1) (st [] Channel.zero) = .next t ∧
      t.curChan.delay ≠ (st [] Channel.zero).curChan.delay := ⟨_, rfl, by decide⟩

theorem test_wit_InstructionFaultsArePrecise :
    (st [] Channel.zero).curChan.fault = 0 ∧
    ∃ t, exec (.call 2) (st [] Channel.zero) = .next t ∧ t.curChan.fault ≠ 0 :=
  ⟨by decide, _, rfl, by decide⟩

theorem test_wit_CursorNeverWraps :
    0xFFFF < (st [] (at' 0xFFFF)).curChan.cursor.toNat + (Instr.note 12).size ∧
    0xFFFF < (st [] (at' 0)).curChan.cursor.toNat + (Instr.data 1 0xFFFE).size := by decide

/-- Also the witness of the statements with one-byte instructions: UnassignedSetupBytesFault,
ReturnRestartsPopsOrExhausts. -/
theorem test_wit_NoteResolvesThroughTheNoteTable :
    (0x3F : Byte).toNat = (63 : BitVec 6).toNat ∧ stLast.curChan.cursor.toNat + 1 ≤ 0xFFFF ∧
    (12 : BitVec 6) ≠ 0 := by decide

/-- The two ends of `InstrRule`'s hypotheses for one, two and three bytes: the statements on setup
instructions, OffInstructionsClearTheGate and DelaySetsItsTicks. -/
theorem test_wit_InstrRule :
    (at' 0xFFFE).cursor.toNat + 1 ≤ 0xFFFF ∧ 0xFFFF < (at' 0xFFFF).cursor.toNat + 1 ∧
    (at' 0xFFFD).cursor.toNat + 2 ≤ 0xFFFF ∧ 0xFFFF < (at' 0xFFFE).cursor.toNat + 2 ∧
    (at' 0xFFFC).cursor.toNat + 3 ≤ 0xFFFF ∧ 0xFFFF < (at' 0xFFFD).cursor.toNat + 3 ∧
    (∀ n, (st [] (at' n)).curChan = at' n) ∧ 2 < ([0x42, 0, 0] : List Byte).length :=
  ⟨by decide, by decide, by decide, by decide, by decide, by decide, fun _ => rfl, by decide⟩

theorem test_wit_SetTempoWritesTempo :
    (st [] (at' 0xFFFD)).curChan.cursor.toNat + 2 ≤ 0xFFFF ∧ (1 : Byte) ≠ 0 ∧ (0 : Byte) = 0 := by decide

theorem test_wit_DelaySetsItsTicks : 1 ≤ 1 ∧ 1 ≤ 64 ∧ 64 ≤ 64 := by decide

theorem test_wit_LongDelayAddsItsBias :
    (st [] (at' 0xFFFB)).curChan.cursor.toNat + (1 + 3) ≤ 0xFFFF ∧ (65405 : Word).toNat < 65406 ∧
    65406 ≤ (65406 : Word).toNat := by decide

theorem test_wit_DelayCountsDownToZero :
    { Channel.zero with delay := 0xFFFE }.delay ≠ 0xFFFF ∧
    0xFFFE ≤ { Channel.zero with delay := 0xFFFE }.delay.toNat ∧ Channel.zero.delay = 0 ∧
    { Channel.zero with delay := 0xFFFF }.delay = 0xFFFF := by decide

theorem test_wit_ReservedAndDataOnlyMoveTheCursor :
    (Instr.reserved 0xE1 []).wf Params.default = true ∧
    (Instr.reserved 0xFB [1, 2]).wf Params.default = true ∧
    (st [] (at' 0xFFFC)).curChan.cursor.toNat + (1 + ([1, 2] : List Byte).length) ≤ 0xFFFF ∧
    (st [] (at' 0xFFF0)).curChan.cursor.toNat + (1 + 1 + (13 : Word).toNat) ≤ 0xFFFF ∧
    0xFFFF < (st [] (at' 0xFFF0)).curChan.cursor.toNat + (1 + 1 + (14 : Word).toNat) := by decide

/-- A channel of call depth 6. -/
def deep (n : Word) : Channel := { at' n with sp := 6 }

theorem test_wit_CallPushesAFrameAndJumps :
    (st [] (deep 0xFFFC)).curChan.sp ≠ 7 ∧ (1 : Byte).toNat < (st [] (deep 0xFFFC)).trackCount.toNat ∧
    Memory.read (st [] (deep 0xFFFC)).song (1 + 2 * (1 : Byte).toNat) = some 0x40 ∧
    Memory.read (st [] (deep 0xFFFC)).song (1 + 2 * (1 : Byte).toNat + 1) = some 0 ∧
    (st [] (deep 0xFFFC)).curChan.cursor.toNat + 3 ≤ 0xFFFF ∧
    (st [] (deep 0xFFFC)).curChan.cursor.toNat + 2 ≤ 0xFFFF := by decide

/-- More tracks than the image has table entries. -/
def stShort : State := { st [] Channel.zero with trackCount := 9 }

theorem test_wit_CallFaultsInOrder :
    (st [] { at' 0xFFFC with sp := 7 }).curChan.cursor.toNat + (Instr.callRepeat 0 9).size ≤ 0xFFFF ∧
    (st [] { at' 0xFFFC with sp := 7 }).curChan.sp = 7 ∧
    (st [] (deep 0)).curChan.cursor.toNat + (Instr.call 2).size ≤ 0xFFFF ∧
    (st [] (deep 0)).curChan.sp ≠ 7 ∧ (st [] (deep 0)).trackCount.toNat ≤ (2 : Byte).toNat ∧
    stShort.curChan.cursor.toNat + (Instr.call 8).size ≤ 0xFFFF ∧ stShort.curChan.sp ≠ 7 ∧
    (8 : Byte).toNat < stShort.trackCount.toNat ∧
    Memory.read stShort.song (1 + 2 * (8 : Byte).toNat) = none ∧
    (4 : Byte).toNat < stShort.trackCount.toNat ∧
    Memory.read stShort.song (1 + 2 * (4 : Byte).toNat + 1) = none ∧
    (st [] (deep 0)).trackReadable 1 :=
  ⟨by decide, by decide, by decide, by decide, by decide, by decide, by decide, by decide, by decide,
    by decide, by decide, 0x40, rfl⟩

/-- Inside a track that track 0 called to run twice. -/
def called : Channel :=
  { at' 0x40 with
    sp := 1, trackId := 1, repeatCounter := 1
    stack := Channel.zero.stack.set 0 { ret := 3, cnt := 0, trk := 0 } }

theorem test_wit_ReturnRestartsPopsOrExhausts :
    (st [] called).curChan.cursor.toNat + 1 ≤ 0xFFFF ∧ (st [] called).curChan.repeatCounter ≠ 0 ∧
    (st [] called).trackStart (st [] called).curChan.trackId = .ok 0x40 ∧
    (st [] (deep 0)).curChan.cursor.toNat + 1 ≤ 0xFFFF ∧ (st [] (deep 0)).curChan.repeatCounter = 0 ∧
    (st [] (deep 0)).curChan.sp ≠ 0 ∧ stLast.curChan.repeatCounter = 0 ∧ stLast.curChan.sp = 0 ∧
    (st [] { called with trackId := 2 }).trackStart 2 = .error .trackRange :=
  ⟨by decide, by decide, rfl, by decide, by decide, by decide, by decide, by decide, rfl⟩

theorem test_called_callInv : ∀ c, ChannelCallInv (st [] called) ((st [] called).chan c) := by
  have h0 : (st [] called).trackReadable 0 := ⟨0, rfl⟩
  have h1 : (st [] called).trackReadable 1 := ⟨0x40, rfl⟩
  have hz : ChannelCallInv (st [] called) Channel.zero :=
    ⟨by decide, fun h => absurd rfl h, fun i hi => absurd hi (Nat.not_lt_zero i), fun h => absurd rfl h⟩
  intro c
  match c with
  | 0 =>
    refine ⟨by decide, fun _ => h1, fun i hi => ?_, by decide⟩
    have hi' : i < 1 := hi
    obtain rfl : i = 0 := by omega
    exact h0
  | 1 => exact hz
  | 2 => exact hz
  | 3 => exact hz

theorem test_wit_ReturnNeverFaults :
    CallInv (st [] called) ∧ (st [] called).curChan.cursor.toNat + 1 ≤ 0xFFFF :=
  ⟨⟨by unfold SongInv; decide, test_called_callInv⟩, by decide⟩

/-- The call of a track that is to run twice, at depth 6. -/
def stCalled : State :=
  (st [] (deep 0xFFFC)).setCur ((deep 0xFFFF).pushCall 1 1 0x40)

/-- At the `j`-th RETURN of that track, with a volume it has set itself. -/
def stReturn (j : Nat) : State :=
  stCalled.setCur { stCalled.curChan with repeatCounter := BitVec.ofNat 8 (1 - j), volume := 9 }

theorem test_wit_ReturnUndoesCall_repeat :
    (st [] (deep 0xFFFC)).curChan.sp ≠ 7 ∧ (st [] (deep 0xFFFC)).curChan.cursor.toNat + 3 ≤ 0xFFFF ∧
    (st [] (deep 0xFFFC)).trackStart 1 = .ok 0x40 ∧
    exec (.callRepeat 1 1) (st [] (deep 0xFFFC)) = .next stCalled ∧ SameCall stCalled (stReturn 0) ∧
    (∀ j, j < (1 : Byte).toNat → ∀ w, exec .ret (stReturn j) = .next w → SameCall w (stReturn (j + 1))) ∧
    ∀ j, j ≤ (1 : Byte).toNat → (stReturn j).curChan.cursor.toNat + 1 ≤ 0xFFFF := by
  refine ⟨by decide, by decide, rfl, rfl, ⟨rfl, rfl, rfl, rfl, rfl, rfl⟩, ?_, by decide⟩
  intro j hj w hw
  obtain rfl : j = 0 := by have : j < 1 := hj; omega
  obtain rfl := Host.Outcome.next.inj hw
  exact ⟨rfl, rfl, rfl, rfl, rfl, rfl⟩

theorem test_wit_ReturnUndoesCall :
    (st [] (deep 0xFFFD)).curChan.sp ≠ 7 ∧ (st [] (deep 0xFFFD)).curChan.cursor.toNat + 2 ≤ 0xFFFF ∧
    (st [] (deep 0xFFFD)).trackReadable 1 ∧
    ∃ u, exec (.call 1) (st [] (deep 0xFFFD)) = .next u ∧ u.curChan.sp = u.curChan.sp ∧
      u.curChan.cursor.toNat + 1 ≤ 0xFFFF :=
  ⟨by decide, by decide, ⟨0x40, rfl⟩, _, rfl, rfl, by decide⟩

theorem test_wit_EveryNFiresOnTheNthTick : 127 ≤ 127 ∧ 126 < 127 ∧ 127 ≤ (126 : Byte).toNat + 1 := by decide

theorem test_wit_SlideMovesItsTarget :
    Channel.zero.slideStep = 0 ∧
    (let c := { Channel.zero with slideStep := 1, slideConfig := 0x3F, slideCount := 61 }
     c.slideStep ≠ 0 ∧ c.slideCount.toNat + 1 < c.slideConfig.toNat % 64) ∧
    (let c := { Channel.zero with slideStep := 0x80, slideConfig := 0x3F, slideCount := 62 }
     c.slideStep ≠ 0 ∧ c.slideConfig.toNat % 64 ≤ c.slideCount.toNat + 1 ∧
       c.slideConfig.getLsbD 6 = false ∧ c.slideConfig.getLsbD 7 = false) ∧
    (let c := { Channel.zero with slideStep := 0x7F, slideConfig := 0xC0 }
     c.slideStep ≠ 0 ∧ c.slideConfig.toNat % 64 ≤ c.slideCount.toNat + 1 ∧
       c.slideConfig.getLsbD 6 = true ∧ c.slideConfig.getLsbD 7 = true) ∧
    ({ Channel.zero with slideConfig := 0x80 }.slideConfig.getLsbD 6 = false ∧
      { Channel.zero with slideConfig := 0x80 }.slideConfig.getLsbD 7 = true ∧
      { Channel.zero with slideConfig := 0x40 }.slideConfig.getLsbD 6 = true ∧
      { Channel.zero with slideConfig := 0x40 }.slideConfig.getLsbD 7 = false) := by decide

theorem test_wit_ArpeggioCyclesItsPhases :
    (Channel.zero.arpNotes = 0 ∨ Channel.zero.note = 0) ∧
    (let c := { Channel.zero with arpNotes := 1, note := 63, arpTiming := 31, arpTick := 30 }
     c.arpNotes ≠ 0 ∧ c.note ≠ 0 ∧ c.arpTick.toNat < c.arpTiming.toNat % 32) ∧
    (let c := { Channel.zero with arpNotes := 0xFF, note := 1, arpTiming := 31, arpTick := 31 }
     c.arpNotes = 0xFF ∧ c.note ≠ 0 ∧ c.arpTiming.toNat % 32 ≤ c.arpTick.toNat ∧ c.arpPhase = 0) ∧
    (let c := { Channel.zero with arpNotes := 0xFF, note := 1, arpPhase := 1 }
     c.arpNotes = 0xFF ∧ c.note ≠ 0 ∧ c.arpTiming.toNat % 32 ≤ c.arpTick.toNat ∧ c.arpPhase ≠ 0) ∧
    (let c := { Channel.zero with arpNotes := 0xFE, note := 1 }
     c.arpNotes ≠ 0xFF ∧ c.note ≠ 0 ∧ c.arpTiming.toNat % 32 ≤ c.arpTick.toNat ∧ c.arpPhase = 0) ∧
    (let c := { Channel.zero with arpNotes := 0xFE, note := 1, arpPhase := 1 }
     c.arpNotes ≠ 0xFF ∧ c.note ≠ 0 ∧ c.arpTiming.toNat % 32 ≤ c.arpTick.toNat ∧ c.arpPhase = 1 ∧
       c.arpTiming.getLsbD 6 = false) ∧
    (let c := { Channel.zero with arpNotes := 0xFE, note := 1, arpPhase := 1, arpTiming := 0x40 }
     c.arpNotes ≠ 0xFF ∧ c.note ≠ 0 ∧ c.arpTiming.toNat % 32 ≤ c.arpTick.toNat ∧
       (c.arpPhase = 1 ∧ c.arpTiming.getLsbD 6 = true ∨ 2 ≤ c.arpPhase.toNat)) := by decide

theorem test_wit_UnboundedTremoloIsPeriodic :
    (let c := { Channel.zero with treviDepth := 255, treviConfig := 0xDF, treviPhase := true }
     c.treviConfig.getLsbD 7 = true ∧ c.treviTick = 0) := by decide

theorem test_wit_TremoloMovesItsTarget :
    Channel.zero.treviDepth = 0 ∧
    (let c := { Channel.zero with treviDepth := 255, treviConfig := 0x1F }
     c.treviDepth ≠ 0 ∧ c.treviConfig.getLsbD 6 = false ∧ c.treviConfig.getLsbD 7 = false) ∧
    (let c := { Channel.zero with treviDepth := 1, treviConfig := 0x80 }
     c.treviDepth ≠ 0 ∧ c.treviConfig.getLsbD 6 = false ∧ c.treviConfig.getLsbD 7 = true) ∧
    (let c := { Channel.zero with treviDepth := 1, treviConfig := 0x40 }
     c.treviDepth ≠ 0 ∧ c.treviConfig.getLsbD 6 = true ∧ c.treviConfig.getLsbD 7 = false) ∧
    (let c := { Channel.zero with treviDepth := 1, treviConfig := 0xC0 }
     c.treviDepth ≠ 0 ∧ c.treviConfig.getLsbD 6 = true ∧ c.treviConfig.getLsbD 7 = true) := by decide

theorem test_wit_GlissandoStepsAndRetriggerReloads :
    Channel.zero.glisConfig = 0 ∧ Channel.zero.retrigConfig = 0 ∧
    (let c := { Channel.zero with glisConfig := 0x7F, glisCount := 125 }
     c.glisConfig ≠ 0 ∧ c.glisCount.toNat + 1 < c.glisConfig.toNat % 128) ∧
    (let c := { Channel.zero with glisConfig := 0xFF, glisCount := 126 }
     c.glisConfig ≠ 0 ∧ c.glisConfig.toNat % 128 ≤ c.glisCount.toNat + 1 ∧ c.note = 0) ∧
    (let c := { Channel.zero with retrigConfig := 3, retrigCount := 1 }
     c.retrigConfig ≠ 0 ∧ c.retrigCount.toNat + 1 < c.retrigConfig.toNat % 4) ∧
    (let c := { Channel.zero with retrigConfig := 3, retrigCount := 2 }
     c.retrigConfig ≠ 0 ∧ c.retrigConfig.toNat % 4 ≤ c.retrigCount.toNat + 1) := by decide

theorem test_wit_BoundedEffectsStayInRange :
    (let c := { Channel.zero with slideStep := 9, treviDepth := 9, volume := 63, frequency := 9397 }
     Params.default.wf = true ∧ c.slideConfig.getLsbD 7 = false ∧ c.treviConfig.getLsbD 7 = false ∧
       c.volume.toNat ≤ 63 ∧ c.frequency.toNat ≤ 9397) := by decide

theorem test_wit_EffectsWriteOnlyTheirRegisters :
    (let c := { Channel.zero with slideConfig := 0xFF, treviConfig := 0xFF, arpTiming := 0xFF, note := 5 }
     c.slideStep = 0 ∧ c.arpNotes = 0 ∧ c.treviDepth = 0 ∧ c.glisConfig = 0 ∧ c.retrigConfig = 0) := by
  decide

/-- A machine at the phase `p` of channel `n`, whose registers are `c`, with the mask `m`. -/
def stAt (p : Phase) (n : Fin 4) (c : Channel) (m : Byte) : State :=
  { st [] Channel.zero with ch := State.reset.ch.set n.val c, mask := m, phase := p, cur := n }

/-- An idle machine with events pending. -/
def stIdle (es : List Event) : State := { st [] Channel.zero with phase := .idle, pending := es }

theorem test_wit_DisabledTickIsDropped :
    (stIdle [.tick]).resetIn = false ∧ (stIdle [.tick]).phase = .idle ∧
    (stIdle [.tick]).pending = [.tick] ∧ (stIdle [.tick]).tickEnable = true ∧
    { stIdle [.tick] with tickEnable := false }.tickEnable = false := by decide

theorem test_wit_InactiveOrFaultedChannelIsSkipped :
    (let s := stAt .service 3 Channel.zero 0x70
     s.resetIn = false ∧ s.phase = .service ∧ s.mask.getLsbD (4 + s.cur.val) = false ∧ s.cur = 3) ∧
    (let s := stAt .service 0 { Channel.zero with fault := 1 } 0xF0
     s.resetIn = false ∧ s.phase = .service ∧ s.curChan.fault ≠ 0 ∧ s.cur ≠ 3) := by decide

theorem test_wit_ServiceRunsEffectsThenWaitsOrFetches :
    (let s := stAt .service 3 Channel.zero 0x80
     s.resetIn = false ∧ s.phase = .service ∧ s.mask.getLsbD (4 + s.cur.val) = true ∧
       s.curChan.fault = 0 ∧ s.curChan.delay = 0) ∧
    (let s := stAt .service 0 { Channel.zero with delay := 0xFFFE } 0x10
     s.resetIn = false ∧ s.phase = .service ∧ s.mask.getLsbD (4 + s.cur.val) = true ∧
       s.curChan.fault = 0 ∧ s.curChan.delay ≠ 0 ∧ s.curChan.delay ≠ 0xFFFF) ∧
    (let s := stAt .service 0 { Channel.zero with delay := 0xFFFF } 0x10
     s.resetIn = false ∧ s.phase = .service ∧ s.mask.getLsbD (4 + s.cur.val) = true ∧
       s.curChan.fault = 0 ∧ s.curChan.delay = 0xFFFF) := by decide

theorem test_wit_LoopEndsOnDelayOrFault :
    (let s := stAt .loopTest 0 Channel.zero 0xF0
     s.resetIn = false ∧ s.phase = .loopTest ∧ s.curChan.fault = 0 ∧ s.curChan.delay = 0) ∧
    (let s := stAt .loopTest 3 { Channel.zero with delay := 0xFFFF } 0xF0
     s.resetIn = false ∧ s.phase = .loopTest ∧ s.curChan.fault = 0 ∧ s.curChan.delay ≠ 0) ∧
    (let s := stAt .loopTest 3 { Channel.zero with fault := 7 } 0xF0
     s.resetIn = false ∧ s.phase = .loopTest ∧ s.curChan.fault ≠ 0 ∧ s.cur = 3) ∧
    (let s := stAt .loopTest 2 { Channel.zero with fault := 7 } 0xF0
     s.resetIn = false ∧ s.phase = .loopTest ∧ s.curChan.fault ≠ 0 ∧ s.cur ≠ 3) := by decide

theorem test_wit_PublishWritesTheSlotOfItsChannel :
    (let s := stAt .publishFreq 2 { Channel.zero with volume := 200 } 0xF0
     s.resetIn = false ∧ s.phase = .publishFreq ∧ s.mask.getLsbD s.cur.val = false ∧ s.cur ≠ 3) ∧
    (let s := stAt .publishFreq 3 { Channel.zero with volume := 200 } 0xF0
     s.resetIn = false ∧ s.phase = .publishFreq ∧ s.mask.getLsbD s.cur.val = false ∧ s.cur = 3) ∧
    (let s := stAt .publishFreq 3 Channel.zero 0xF8
     s.resetIn = false ∧ s.phase = .publishFreq ∧ s.mask.getLsbD s.cur.val = true) := by decide

theorem test_wit_AutoStopStopsAnInactiveBlock :
    (let s := stAt .autoStopCheck 0 Channel.zero 0x10
     s.resetIn = false ∧ s.phase = .autoStopCheck ∧ s.mask.toNat / 16 ≠ 0) ∧
    (let s := stAt .autoStopCheck 0 Channel.zero 0x0F
     s.resetIn = false ∧ s.phase = .autoStopCheck ∧ s.mask.toNat / 16 = 0) := by decide

/-- The second part of AutoStopStopsAnInactiveBlock. -/
theorem test_wit_AutoStopStopsAnInactiveBlock_tick :
    let s := { State.reset with tickEnable := true, pending := [.tick] }
    s.resetIn = false ∧ s.phase = .idle ∧ s.pending = [.tick] ∧ s.isTickingStopped :=
  ⟨rfl, rfl, rfl, by decide, rfl⟩

/-- Channel 2 faulted at cursor 4, about to be skipped. -/
def stFaulted : State := stAt .service 2 { at' 4 with fault := 2, faultCursor := 4 } 0xF0

theorem test_wit_FaultedChannelIsFrozen :
    FaultInv stFaulted ∧ stFaulted.resetIn = false ∧ (stFaulted.chan 2).fault ≠ 0 ∧
    (stFaulted.phase = .service ∨ stFaulted.phase.inService = true) ∧ ∃ t, step stFaulted = .next t :=
  ⟨by unfold FaultInv; decide, by decide, by decide, by decide, _, rfl⟩

theorem test_wit_PendingEventsWait :
    stFaulted.resetIn = false ∧ stFaulted.phase ≠ .idle ∧ ∃ t, step stFaulted = .next t :=
  ⟨by decide, by decide, _, rfl⟩

/-- Also the witness of EveryEventEnds. -/
theorem test_wit_InterpreterLoopEnds :
    (st [0xFC, 0] Channel.zero).resetIn = false ∧ (st [0xFC, 0] Channel.zero).phase = .interpret := by
  decide

theorem test_wit_OnePendingEventBegins :
    (stIdle [.tick, .stop]).resetIn = false ∧ (stIdle [.tick, .stop]).phase = .idle ∧
    (stIdle [.tick, .stop]).pending ≠ [] ∧ (stIdle []).pending = [] := by decide

theorem test_wit_PlayInstallsAndSeeds :
    (stIdle [.play (image [])]).resetIn = false ∧ (stIdle [.play (image [])]).phase = .idle ∧
    (stIdle [.play (image [])]).pending = [.play (image [])] ∧ (image [])[1 + 2 * 2 + 3]? = some 1 ∧
    (1 : Byte).toNat < ((image []).getD 0 0).toNat ∧ (image [])[1 + 2 * 1]? = some 0x40 ∧
    (image [])[1 + 2 * 1 + 1]? = some 0 ∧ ([] : List Byte)[1 + 2 * 0 + 0]? = none ∧
    ([0, 0, 0, 0, 0] : List Byte)[1 + 2 * 0 + 3]? = some 0 ∧
    (([0, 0, 0, 0, 0] : List Byte).getD 0 0).toNat ≤ (0 : Byte).toNat := by decide

theorem test_wit_WholeHeaderPlaysWithoutFault :
    (image [])[0]? = some 2 ∧ 5 + 2 * (2 : Byte).toNat ≤ (image []).length ∧
    ∀ (n : Fin 4) (id : Byte), (image [])[1 + 2 * (2 : Byte).toNat + n.val]? = some id →
      id.toNat < (2 : Byte).toNat := by decide

theorem test_wit_StopSilencesTheBlock :
    (stIdle [.stop]).resetIn = false ∧ (stIdle [.stop]).phase = .idle ∧
    (stIdle [.stop]).pending = [.stop] := by decide

theorem test_wit_PauseAndMuteWriteOneBit :
    (stIdle [.playPause]).resetIn = false ∧ (stIdle [.playPause]).phase = .idle ∧
    (stIdle [.playPause]).pending = [.playPause] ∧ (stIdle [.mute 3]).pending = [.mute 3] ∧
    (stIdle [.unmute 0]).pending = [.unmute 0] := by decide

/-- Each run state `playPause` is stated for, with `playPause` pending. -/
theorem test_wit_PauseAndMuteWriteOneBit_runStates :
    (stIdle [.playPause]).isPlaying ∧ { stIdle [.playPause] with tickEnable := false }.isPaused ∧
    { State.reset with pending := [.playPause] }.isStopped ∧
    { State.reset with pending := [.playPause], tickEnable := true }.isTickingStopped ∧
    ∀ c, { State.reset with pending := [.playPause], tickEnable := true }.chan c = Channel.zero :=
  ⟨⟨by decide, rfl⟩, ⟨by decide, rfl⟩, ⟨by decide, rfl, by decide⟩, ⟨by decide, rfl⟩, by decide⟩

theorem test_wit_ResetZeroesEveryRegister : stFaulted.assertReset.resetIn = true := by decide

theorem test_wit_MuteDoesNotHaltSequencing :
    SameButMute stFaulted (stFaulted.mute 2) ∧ stFaulted ≠ stFaulted.mute 2 ∧
    (∃ t, step stFaulted = .next t) ∧ ∃ t, step (stFaulted.mute 2) = .next t :=
  ⟨⟨rfl, rfl, rfl, rfl, rfl, rfl, rfl, rfl, rfl, rfl, rfl, rfl, rfl⟩, by decide, ⟨_, rfl⟩, _, rfl⟩

/-- A channel with counters at the ends of their ranges. -/
def busyChannel : Channel :=
  { Channel.zero with slideCount := 62, glisCount := 126, retrigCount := 2, arpPhase := 2, arpNotes := 1
                      note := 63, slideStep := 1, slideConfig := 0x3F, glisConfig := 0x7F, retrigConfig := 3 }

theorem test_wit_StepKeepsCountersInRange :
    CountersInv (stAt .service 1 busyChannel 0xF0) ∧
    ∃ t, step (stAt .service 1 busyChannel 0xF0) = .next t :=
  ⟨by unfold CountersInv; decide, _, rfl⟩

theorem test_wit_StepKeepsFaultedChannelsInPlace :
    FaultInv stFaulted ∧ ∃ t, step stFaulted = .next t :=
  ⟨by unfold FaultInv; decide, _, rfl⟩

theorem test_wit_StepKeepsTheCallStackDiscipline :
    CallInv (st [] called) ∧ ∃ t, step (st [] called) = .next t :=
  ⟨⟨by unfold SongInv; decide, test_called_callInv⟩, _, rfl⟩

theorem test_wit_StepKeepsTheRunStates :
    RunStateInv (st [0x0C] Channel.zero) ∧ ∃ t, step (st [0x0C] Channel.zero) = .next t :=
  ⟨by unfold RunStateInv; decide, _, rfl⟩

theorem test_wit_StepKeepsTheGlobalsInRange :
    GlobalsInv (st [0x0C] Channel.zero) ∧ ∃ t, step (st [0x0C] Channel.zero) = .next t :=
  ⟨by unfold GlobalsInv SongInv; decide, _, rfl⟩

end Sys2Proof.Tests
end

section
/-! The variable-length integer as the fetch reads it (30_encoding.md R106). The fetch of a byte refuses
exactly when the value before it does not fit in 9 bits, so the whole read is settled by one rule for a run
of continuation bytes (`readVle_append`) and one fetch after it. -/

namespace Sys2Proof

/-- The big-endian base-128 number of the low seven bits of a list of bytes. -/
def vleValue (bytes : List Byte) : Nat := bytes.foldl (fun v b => v * 128 + b.toNat % 128) 0

@[simp] theorem vleValue_nil : vleValue [] = 0 := rfl

@[simp] theorem vleValue_concat (bytes : List Byte) (b : Byte) :
    vleValue (bytes ++ [b]) = vleValue bytes * 128 + b.toNat % 128 := by
  simp [vleValue, List.foldl_append]

theorem vleValue_dropLast_le (bytes : List Byte) : vleValue bytes.dropLast ≤ vleValue bytes := by
  induction bytes using List.reverseRecOn with
  | nil => exact le_rfl
  | append_singleton bytes b _ => rw [List.dropLast_concat, vleValue_concat]; omega

theorem readVle_nil (v k : Nat) : readVle v k [] = .bad .truncated := rfl

theorem readVle_cons_outOfRange {v : Nat} (hv : ¬ v < 512) (k : Nat) (b : Byte) (rest : List Byte) :
    readVle v k (b :: rest) = .bad .vleRange :=
  if_pos (by omega)

theorem readVle_cons_last {v : Nat} {b : Byte} (hv : v < 512) (hb : b.toNat < 128) (k : Nat)
    (rest : List Byte) : readVle v k (b :: rest) = .ok (v * 128 + b.toNat % 128) (k + 1) := by
  have hfits : ¬ v > 0x1FF := by omega
  simp [readVle, hfits, hb]

theorem readVle_cons_continue {v : Nat} {b : Byte} (hv : v < 512) (hb : 128 ≤ b.toNat) (k : Nat)
    (rest : List Byte) : readVle v k (b :: rest) = readVle (v * 128 + b.toNat % 128) (k + 1) rest := by
  have hfits : ¬ v > 0x1FF := by omega
  simp [readVle, hfits, hb]

/-- Bytes with the top bit set are read as their base-128 number, and the read goes on behind them, unless
the fetch of the last of them already refuses. Induction from the right: the last byte of a longer run is
the first byte behind the shorter one. -/
theorem readVle_append (lead tail : List Byte) (hlead : ∀ b ∈ lead, 128 ≤ b.toNat) :
    readVle 0 0 (lead ++ tail) =
      if vleValue lead.dropLast < 512 then readVle (vleValue lead) lead.length tail
      else .bad .vleRange := by
  induction lead using List.reverseRecOn generalizing tail with
  | nil => rfl
  | append_singleton lead b ih =>
    have hb : 128 ≤ b.toNat := hlead b (by simp)
    have hrun := ih (b :: tail) fun c hc => hlead c (by simp [hc])
    have hmono := vleValue_dropLast_le lead
    rw [List.append_assoc, List.singleton_append, hrun, List.dropLast_concat, vleValue_concat,
      List.length_append, List.length_singleton]
    by_cases hv : vleValue lead < 512
    · rw [if_pos (by omega), if_pos hv, readVle_cons_continue hv hb]
    · rw [readVle_cons_outOfRange hv, ite_self, if_neg hv]

/-- A complete spelling is refused exactly when its value does not fit in 16 bits (decision D24). -/
theorem readVle_complete (lead : List Byte) (last : Byte) (rest : List Byte)
    (hlead : ∀ b ∈ lead, 128 ≤ b.toNat) (hlast : last.toNat < 128) :
    readVle 0 0 (lead ++ last :: rest) =
      if vleValue (lead ++ [last]) < 65536 then .ok (vleValue (lead ++ [last])) (lead.length + 1)
      else .bad .vleRange := by
  have hmono := vleValue_dropLast_le lead
  rw [readVle_append lead _ hlead, vleValue_concat]
  by_cases hv : vleValue lead < 512
  · rw [if_pos (by omega), readVle_cons_last hv hlast, if_pos (by omega)]
  · rw [readVle_cons_outOfRange hv, ite_self, if_neg (by omega)]

/-- Settles O4: the first half is `readVle_complete`; the second is `readVle_append` with nothing behind the
run, where the next fetch finds no byte. -/
theorem vleIsBigEndianBase128 : Obligations.VleIsBigEndianBase128 := by
  unfold Obligations.VleIsBigEndianBase128
  constructor
  · exact readVle_complete
  · intro lead hlead
    have hrun := readVle_append lead [] hlead
    rwa [List.append_nil, readVle_nil] at hrun

/-- The run `84 80 80`: the value before its last byte is exactly 512, so the fetch of that byte refuses. -/
theorem readVle_continuationRun_vleRange : readVle 0 0 [0x84, 0x80, 0x80] = .bad .vleRange :=
  (vleIsBigEndianBase128.2 [0x84, 0x80, 0x80] (by decide)).trans (by decide)

end Sys2Proof
end

section
/-! NOTE (41_note.md R151 to R154). One equation for each of the two conditional resets, then one for the
whole effect, each with its condition inside the fields it governs, as the claim says it. -/

namespace Sys2Proof.Machine

/-- A first byte below 64 is NOTE of that index (30_encoding.md R101). -/
theorem form_note (p : Params) {n : BitVec 6} {op : Byte} (h : op.toNat = n.toNat) :
    form p op = .f0 (.note n) := by
  have hop : op.toNat < 64 := h ▸ n.isLt
  have hn : op.setWidth 6 = n := BitVec.eq_of_toNat_eq (by rw [BitVec.toNat_setWidth, h]; omega)
  simp [form, hop, hn]

/-- NOTE has no operand bytes, so it is decoded whatever follows (30_encoding.md R102). -/
theorem decode_note (p : Params) {n : BitVec 6} {op : Byte} (h : op.toNat = n.toNat) (rest : List Byte) :
    decode p (op :: rest) = .ok (.note n) 1 := by
  simp [decode, form_note p h, decodedAs, Instr.size]

theorem encode_note {n : BitVec 6} {op : Byte} (h : op.toNat = n.toNat) : encode (.note n) = [op] := by
  have hop : n.setWidth 8 = op := BitVec.eq_of_toNat_eq (by rw [BitVec.toNat_setWidth, h]; omega)
  rw [encode, hop]

/-- A clamped note index lies in 0..63 (41_note.md R152). -/
theorem clampNote_toNat (v : Int) : ((clampNote v).toNat : Int) = max 0 (min 63 v) := by
  have hmem : 0 ≤ clamp v 0 Config.noteMax ∧ clamp v 0 Config.noteMax ≤ 63 := clamp_mem (by decide)
  have hclamp : clamp v 0 Config.noteMax = max 0 (min 63 v) := by
    unfold clamp Config.noteMax; split_ifs <;> omega
  rw [clampNote, BitVec.toNat_ofInt, ← hclamp]
  omega

/-- A note off is not transposed (41_note.md R151). -/
theorem noteIndex_zero (transpose : Byte) : noteIndex 0 transpose = 0 := rfl

/-- A note on resolves its transposed index, clamped (R152). -/
theorem noteIndex_toNat {n : BitVec 6} (hn : n ≠ 0) (transpose : Byte) :
    ((noteIndex n transpose).toNat : Int) = max 0 (min 63 (n.toNat + transpose.toInt)) := by
  rw [noteIndex, if_neg hn, clampNote_toNat]

/-- `NT[i]` is the `i`-th entry of the table as a list (20_memory.md R75). -/
theorem noteFreq_eq_getD (p : Params) (i : BitVec 6) :
    noteFreq p i = p.noteTable.toList.getD i.toNat 0 := by
  rw [List.getD_eq_getElem _ _ (by simpa using i.isLt), Vector.getElem_toList, noteFreq]

theorem noteArpReset_eq (c : Channel) :
    c.noteArpReset =
      { c with
        arpPhase := if c.arpTiming.getLsbD 5 then 0 else c.arpPhase
        arpTick := if c.arpTiming.getLsbD 5 then 0 else c.arpTick } := by
  unfold Channel.noteArpReset Channel.arpRetrigger
  cases c.arpTiming.getLsbD 5 <;> rfl

theorem noteTreviPolicy_eq (p : Params) (c : Channel) :
    c.noteTreviPolicy p =
      { c with
        treviTick := if p.treviRetrig = .reset then 0 else c.treviTick
        treviPhase := if p.treviRetrig = .reset then false else c.treviPhase } := by
  unfold Channel.noteTreviPolicy
  cases p.treviRetrig <;> rfl

/-- Everything NOTE writes (R151, R153, R154). -/
theorem noteOn_eq (p : Params) (n : BitVec 6) (c : Channel) :
    c.noteOn p n =
      { c with
        note := noteIndex n c.transpose
        frequency := noteFreq p (noteIndex n c.transpose)
        volume := c.volSet
        arpPhase := if c.arpTiming.getLsbD 5 then 0 else c.arpPhase
        arpTick := if c.arpTiming.getLsbD 5 then 0 else c.arpTick
        treviTick := if p.treviRetrig = .reset then 0 else c.treviTick
        treviPhase := if p.treviRetrig = .reset then false else c.treviPhase } := by
  rw [Channel.noteOn, noteTreviPolicy_eq, noteArpReset_eq]

/-- NOTE with room for its byte completes, with its effect on the channel past that byte. -/
theorem exec_note_ok (n : BitVec 6) {s : State} (h : s.curChan.cursor.toNat + 1 ≤ 0xFFFF) :
    exec (.note n) s = .next (s.setCur ((s.curChan.advance 1).noteOn s.params n)) :=
  updateChannel_ok h

/-- Settles O15: the encoding by `encode_note` and `decode_note`; the effect by `exec_note_ok` and
`noteOn_eq`, at the index that `noteIndex` resolves. -/
theorem noteResolvesThroughTheNoteTable : Obligations.NoteResolvesThroughTheNoteTable := by
  unfold Obligations.NoteResolvesThroughTheNoteTable
  constructor
  · exact fun p n op rest h => ⟨encode_note h, decode_note p h rest⟩
  · intro n s hroom
    refine ⟨_, noteIndex n s.curChan.transpose, exec_note_ok n hroom, ?_, ?_, ?_⟩
    · rintro rfl
      exact noteIndex_zero _
    · exact fun hn => noteIndex_toNat hn _
    · rw [← noteFreq_eq_getD, noteOn_eq]
      exact onlyCur_setCur s _

end Sys2Proof.Machine
end

section
/-! Decoding by the format of the first byte (30_encoding.md R102): a whole instruction of one of the fixed
formats, a stream that ends inside it, and what no first byte can make. -/

namespace Sys2Proof

/-- The instruction that the operand bytes complete, where the format has exactly so many (R102); a
variable-length operand is none of the fixed formats. -/
def Form.complete : Form → List Byte → Option Instr
  | .f0 i, [] => some i
  | .f1 mk, [a] => some (mk a)
  | .f2 mk, [a, b] => some (mk a b)
  | _, _ => none

/-- The three ways operand bytes complete a first byte. -/
theorem Form.complete_eq_some {f : Form} {operands : List Byte} {i : Instr}
    (h : f.complete operands = some i) :
    (f = .f0 i ∧ operands = []) ∨
    (∃ mk a, f = .f1 mk ∧ operands = [a] ∧ mk a = i) ∨
    (∃ mk a b, f = .f2 mk ∧ operands = [a, b] ∧ mk a b = i) := by
  unfold Form.complete at h
  split at h
  · next => exact .inl ⟨congrArg _ (Option.some.inj h), rfl⟩
  · next mk a => exact .inr (.inl ⟨mk, a, rfl, rfl, Option.some.inj h⟩)
  · next mk a b => exact .inr (.inr ⟨mk, a, b, rfl, rfl, Option.some.inj h⟩)
  · cases h

/-- A first byte and the operand bytes that complete it decode, whatever follows (R111). -/
theorem decode_of_complete {p : Params} {op : Byte} {operands : List Byte} {i : Instr}
    (h : (form p op).complete operands = some i) (rest : List Byte) :
    decode p (op :: (operands ++ rest)) = .ok i i.size := by
  rcases Form.complete_eq_some h with ⟨hf, rfl⟩ | ⟨mk, a, hf, rfl, rfl⟩ | ⟨mk, a, b, hf, rfl, rfl⟩ <;>
    simp [decode, hf, decodedAs]

/-- With an operand byte missing the fetch of it fails (R103). -/
theorem decode_take_of_complete {p : Params} {op : Byte} {operands : List Byte} {i : Instr}
    (h : (form p op).complete operands = some i) {n : Nat} (hn : n < operands.length) :
    decode p (op :: operands.take n) = .bad .truncated := by
  rcases Form.complete_eq_some h with ⟨hf, rfl⟩ | ⟨mk, a, hf, rfl, rfl⟩ | ⟨mk, a, b, hf, rfl, rfl⟩
  · exact absurd hn (Nat.not_lt_zero n)
  · obtain rfl : n = 0 := Nat.lt_one_iff.mp hn
    simp [decode, hf]
  · match n, hn with
    | 0, _ => simp [decode, hf]
    | 1, _ => simp [decode, hf]

/-- Every instruction that operand bytes can make of the form satisfies `P`. -/
def Form.Makes (P : Instr → Prop) : Form → Prop
  | .f0 i => P i
  | .f1 mk => ∀ a, P (mk a)
  | .f2 mk => ∀ a b, P (mk a b)
  | .fv mk => ∀ k v, P (mk k v)

/-- What a stream decodes to is something its first byte's form makes. -/
theorem decode_makes {P : Instr → Prop} {p : Params} {op : Byte} {rest : List Byte} {i : Instr} {n : Nat}
    (hP : (form p op).Makes P) (h : decode p (op :: rest) = .ok i n) : P i := by
  simp only [decode, decodedAs] at h
  cases hf : form p op with
  | f0 j =>
    rw [hf] at h hP
    cases h
    exact hP
  | f1 mk =>
    rw [hf] at h hP
    cases rest with
    | nil => cases h
    | cons a rest => cases h; exact hP a
  | f2 mk =>
    rw [hf] at h hP
    match rest, h with
    | a :: b :: rest, rfl => exact hP a b
  | fv mk =>
    rw [hf] at h hP
    cases hv : readVle 0 0 rest with
    | ok v k => simp only [hv] at h; cases h; exact hP k _
    | bad e => simp only [hv] at h; cases h

/-- The unassigned setup first bytes as the spec lists them (30_encoding.md R110). -/
theorem isUnassignedFx_iff (op : Byte) :
    isUnassignedFx op = true ↔
      (86 ≤ op.toNat ∧ op.toNat ≤ 156) ∨ op.toNat = 158 ∨ op.toNat = 159 := by
  simp only [isUnassignedFx, Bool.and_eq_true, decide_eq_true_eq, bne_iff_ne]
  omega

/-- An unassigned setup first byte is an instruction without operands (R110). -/
theorem form_unassignedFx (p : Params) {op : Byte} (h : isUnassignedFx op = true) :
    form p op = .f0 (.reservedFx op) := by
  have hop := (isUnassignedFx_iff op).mp h
  have hsetup : form p op = setupForm op := by
    rw [form, if_neg (by omega), if_pos (by omega)]
  rw [hsetup, setupForm]
  split
  case h_24 => rfl
  all_goals omega

/-- Among the setup first bytes only an unassigned one makes RESERVED_FX. -/
theorem setupForm_makes_reservedFx {op : Byte} (hlo : 64 ≤ op.toNat) (hhi : op.toNat < 160) :
    (setupForm op).Makes fun i => i = .reservedFx op → isUnassignedFx op = true := by
  unfold setupForm
  split
  case h_24 =>
    intro _
    -- `omega` reads the excluded bytes as `≠`, not as the `→ False` that `split` leaves
    simp only [imp_false] at *
    rw [isUnassignedFx_iff]
    omega
  all_goals exact nofun

/-- A RESERVED first byte makes nothing but RESERVED, with any operand bytes (R118). -/
theorem reservedForm_makes {P : Instr → Prop} (p : Params) (op : Byte)
    (h : ∀ operands, P (.reserved op operands)) : (reservedForm p op).Makes P := by
  unfold reservedForm
  split
  · exact h []
  · exact fun a => h [a]
  · exact fun a b => h [a, b]

/-- Among all first bytes only an unassigned setup byte makes RESERVED_FX (R101, R110). -/
theorem form_makes_reservedFx (p : Params) (op : Byte) :
    (form p op).Makes fun i => i = .reservedFx op → isUnassignedFx op = true := by
  simp only [form]
  split_ifs with hnote hsetup hdelay hlong hreserved
  · exact nofun
  · exact setupForm_makes_reservedFx (Nat.le_of_not_lt hnote) hsetup
  · exact nofun
  · exact nofun
  · exact reservedForm_makes p op fun _ => nofun
  all_goals exact nofun

/-- A first byte is RESERVED_FX exactly where it is unassigned (R110, R112). -/
theorem decode_reservedFx_iff (p : Params) (op : Byte) (rest : List Byte) :
    decode p (op :: rest) = .ok (.reservedFx op) 1 ↔ isUnassignedFx op = true := by
  constructor
  · exact fun h => decode_makes (form_makes_reservedFx p op) h rfl
  · intro h
    have hcomplete : (form p op).complete [] = some (.reservedFx op) := by
      rw [form_unassignedFx p h, Form.complete]
    exact decode_of_complete hcomplete rest

end Sys2Proof
end

section
/-! The setup instructions (42_setup_fx.md R161 to R182, R188). `InstrRule` of an instruction over
`updateChannel` follows from its row in each of the model's tables: the form of its first byte, its encoding,
its size, its arm of `exec`; and from an effect that leaves the cursor alone. -/

namespace Sys2Proof.Machine

/-- An instruction of a fixed format whose effect neither reads nor writes the cursor has the whole rule of
00_scope.md R13. -/
theorem instrRule_of_updateChannel {i : Instr} {op : Byte} {operands : List Byte} {upd : Channel → Channel}
    (hform : ∀ p, (form p op).complete operands = some i) (hencode : encode i = op :: operands)
    (hsize : i.size = operands.length + 1)
    (hexec : ∀ s, exec i s = updateChannel (operands.length + 1) upd s)
    (hcursor : ∀ c x, upd { c with cursor := x } = { upd c with cursor := x }) :
    InstrRule i (op :: operands) upd := by
  refine ⟨hencode, fun p rest => ?_, fun p n hn => ?_, fun s hroom => ?_, fun s hfull => ?_⟩
  · rw [List.length_cons, ← hsize]
    exact decode_of_complete (hform p) rest
  · cases n with
    | zero => rfl
    | succ n => exact decode_take_of_complete (hform p) (Nat.lt_of_succ_lt_succ hn)
  · refine ⟨_, (hexec s).trans (updateChannel_ok hroom), ?_⟩
    rw [Channel.advance, hcursor]
    exact onlyCur_setCur s _
  · exact ⟨_, (hexec s).trans (runInstr_bounds hfull), takesFault_raise s _⟩

/-- Settles O16: a row of the model's tables for each of the five; `0xBF` and `0x40` are the masks of
`targetVolume` and `targetFrequency`. -/
theorem volumeAndSlideSetupsLoadTheirRegisters : Obligations.VolumeAndSlideSetupsLoadTheirRegisters := by
  unfold Obligations.VolumeAndSlideSetupsLoadTheirRegisters
  intro v step cfg
  refine ⟨?_, ?_, ?_, ?_, ?_⟩ <;>
    exact instrRule_of_updateChannel (fun _ => rfl) rfl rfl (fun _ => rfl) (fun _ _ => rfl)

/-- The signed sum of ADD_TRANSPOSE is the sum modulo 256: 127 + 1 is -128 (R172). -/
theorem exec_addTranspose (d : Byte) (s : State) :
    exec (.addTranspose d) s = updateChannel 2 (fun c => { c with transpose := c.transpose + d }) s := by
  have hwrap : ∀ x : Byte, BitVec.ofInt 8 (x.toInt + d.toInt) = x + d := fun x => by
    rw [BitVec.ofInt_add, BitVec.ofInt_toInt, BitVec.ofInt_toInt]
  simp only [exec, execAddTranspose, hwrap]

/-- Settles O17: as O16, with `exec_addTranspose` for the one effect that computes. -/
theorem effectSetupsLoadTheirRegisters : Obligations.EffectSetupsLoadTheirRegisters := by
  unfold Obligations.EffectSetupsLoadTheirRegisters
  intro a b
  have haddTranspose : InstrRule (.addTranspose a) [0x4B, a]
      (fun c => { c with transpose := c.transpose + a }) :=
    instrRule_of_updateChannel (fun _ => rfl) rfl rfl (exec_addTranspose a) (fun _ _ => rfl)
  refine ⟨?_, ?_, ?_, ?_, ?_, haddTranspose, ?_, ?_⟩ <;>
    exact instrRule_of_updateChannel (fun _ => rfl) rfl rfl (fun _ => rfl) (fun _ _ => rfl)

/-- Settles O18: a row of the model's tables for each of the nine, none with an operand byte. -/
theorem offInstructionsClearTheGate : Obligations.OffInstructionsClearTheGate := by
  unfold Obligations.OffInstructionsClearTheGate
  refine ⟨?_, ?_, ?_, ?_, ?_, ?_, ?_, ?_, ?_⟩ <;>
    exact instrRule_of_updateChannel (fun _ => rfl) rfl rfl (fun _ => rfl) (fun _ _ => rfl)

/-- RESERVED_FX with room for its byte takes `ReservedFx` (R188). -/
theorem exec_reservedFx (op : Byte) {s : State} (h : s.curChan.cursor.toNat + 1 ≤ 0xFFFF) :
    exec (.reservedFx op) s = .next (s.raise .reservedFx) := by
  rw [exec, execReservedFx]
  exact runInstr_error h rfl

/-- Settles O20: the bytes by `decode_reservedFx_iff`, the fault by `exec_reservedFx`. -/
theorem unassignedSetupBytesFault : Obligations.UnassignedSetupBytesFault := by
  unfold Obligations.UnassignedSetupBytesFault
  constructor
  · exact fun p op rest => (decode_reservedFx_iff p op rest).trans (isUnassignedFx_iff op)
  · exact fun op s hroom => ⟨_, exec_reservedFx op hroom, takesFault_raise s _⟩

end Sys2Proof.Machine
end

section
/-! The call stack (45_call_return.md R221 to R226). `TrackStart`, `DoCall` and RETURN have one equation per
case; each is then carried to the whole instruction, whose bytes have been fetched when its effect begins. -/

namespace Sys2Proof.Machine

/-! ### `TrackStart` -/

/-- A 16-bit read fails exactly where one of its two bytes does (20_memory.md R73). -/
theorem Memory.read16_eq_none_iff {m : Memory} {a : Nat} :
    Memory.read16 m a = none ↔ Memory.read m a = none ∨ Memory.read m (a + 1) = none := by
  unfold Memory.read16
  cases Memory.read m a <;> cases Memory.read m (a + 1) <;> simp

theorem trackStart_trackRange {s : State} {t : Byte} (h : s.trackCount.toNat ≤ t.toNat) :
    s.trackStart t = .error .trackRange :=
  if_pos h

/-- The entry of a track in range is read, and the read may fail (R80). -/
theorem trackStart_songBounds {s : State} {t : Byte} (hrange : t.toNat < s.trackCount.toNat)
    (hread : Memory.read s.song (1 + 2 * t.toNat) = none ∨
      Memory.read s.song (1 + 2 * t.toNat + 1) = none) :
    s.trackStart t = .error .songBounds := by
  simp [State.trackStart, Nat.not_le.mpr hrange, Memory.read16_eq_none_iff.mpr hread]

/-! ### Fetching moves the cursor only (30_encoding.md R104) -/

section Advance

variable (c : Channel) (n : Nat)

@[simp] theorem Channel.advance_sp : (c.advance n).sp = c.sp := rfl
@[simp] theorem Channel.advance_repeatCounter : (c.advance n).repeatCounter = c.repeatCounter := rfl
@[simp] theorem Channel.advance_trackId : (c.advance n).trackId = c.trackId := rfl
@[simp] theorem Channel.advance_fault : (c.advance n).fault = c.fault := rfl

end Advance

/-! ### CALL and CALL_REPEAT -/

section Call

variable {r t : Byte} {s : State}

theorem doCall_stackOverflow (hsp : s.curChan.sp = 7) : doCall r t s = .error .stackOverflow :=
  if_pos hsp

theorem doCall_error {cause : FaultCause} (hsp : s.curChan.sp ≠ 7) (hstart : s.trackStart t = .error cause) :
    doCall r t s = .error cause := by
  rw [doCall, if_neg hsp, hstart]

theorem doCall_ok {w : Word} (hsp : s.curChan.sp ≠ 7) (hstart : s.trackStart t = .ok w) :
    doCall r t s = .ok (s.setCur (s.curChan.pushCall r t w)) := by
  rw [doCall, if_neg hsp, hstart]

/-- Both call instructions are `DoCall` behind their bytes; CALL calls with the repeat count 0 (R221,
R222). -/
theorem exec_call_eq_runInstr {i : Instr} (hi : i = .callRepeat r t ∨ i = .call t) (s : State) :
    ∃ count, exec i s = runInstr i.size (doCall count t) s := by
  rcases hi with rfl | rfl
  · exact ⟨r, rfl⟩
  · exact ⟨0, rfl⟩

variable {n : Nat}

theorem runInstr_doCall_stackOverflow (hroom : s.curChan.cursor.toNat + n ≤ 0xFFFF)
    (hsp : s.curChan.sp = 7) : runInstr n (doCall r t) s = .next (s.raise .stackOverflow) :=
  runInstr_error hroom (doCall_stackOverflow (by simpa using hsp))

theorem runInstr_doCall_error {cause : FaultCause} (hroom : s.curChan.cursor.toNat + n ≤ 0xFFFF)
    (hsp : s.curChan.sp ≠ 7) (hstart : s.trackStart t = .error cause) :
    runInstr n (doCall r t) s = .next (s.raise cause) :=
  runInstr_error hroom (doCall_error (by simpa using hsp) hstart)

theorem runInstr_doCall_ok {w : Word} (hroom : s.curChan.cursor.toNat + n ≤ 0xFFFF)
    (hsp : s.curChan.sp ≠ 7) (hstart : s.trackStart t = .ok w) :
    runInstr n (doCall r t) s = .next (s.setCur ((s.curChan.advance n).pushCall r t w)) :=
  (runInstr_ok hroom (doCall_ok (by simpa using hsp) hstart)).trans (by simp)

end Call

/-- Below depth 7 a call does not wrap the depth (R223). -/
theorem Channel.pushCall_sp_toNat {c : Channel} (hsp : c.sp ≠ 7) (r t : Byte) (w : Word) :
    (c.pushCall r t w).sp.toNat = c.sp.toNat + 1 := by
  have hpush : (c.pushCall r t w).sp = c.sp + 1 := rfl
  rw [hpush]
  bv_omega

@[simp] theorem Channel.pushCall_fault (c : Channel) (r t : Byte) (w : Word) :
    (c.pushCall r t w).fault = c.fault := rfl

/-- Settles O26: `exec_call_eq_runInstr` makes one instruction of the two; then one equation of `DoCall` for
each clause, with the fault of `TrackStart` that the clause names. -/
theorem callFaultsInOrder : Obligations.CallFaultsInOrder := by
  unfold Obligations.CallFaultsInOrder
  intro r t s i hi hroom
  obtain ⟨count, hexec⟩ := exec_call_eq_runInstr hi s
  rw [hexec]
  refine ⟨fun hsp => ?overflow, fun hsp hrange => ?range, fun hsp hrange hread => ?bounds,
    fun hsp ⟨w, hstart⟩ => ?legal⟩
  case overflow => exact ⟨_, runInstr_doCall_stackOverflow hroom hsp, takesFault_raise s _⟩
  case range =>
    exact ⟨_, runInstr_doCall_error hroom hsp (trackStart_trackRange hrange), takesFault_raise s _⟩
  case bounds =>
    exact ⟨_, runInstr_doCall_error hroom hsp (trackStart_songBounds hrange hread), takesFault_raise s _⟩
  case legal =>
    refine ⟨_, runInstr_doCall_ok hroom hsp hstart, ?_, ?_⟩
    · simp
    · rw [State.setCur_curChan]
      exact Channel.pushCall_sp_toNat (c := s.curChan.advance i.size) hsp count t w

/-! ### RETURN -/

/-- RETURN is one byte, whatever follows (R226). -/
theorem decode_ret (p : Params) (rest : List Byte) : decode p (0xFE :: rest) = .ok .ret 1 :=
  decode_of_complete (operands := []) rfl rest

section Return

variable {s : State}

theorem doReturn_error {cause : FaultCause} (hrepeat : s.curChan.repeatCounter ≠ 0)
    (hstart : s.trackStart s.curChan.trackId = .error cause) : doReturn s = .error cause := by
  simp only [doReturn, if_pos hrepeat, hstart]

theorem doReturn_restart {w : Word} (hrepeat : s.curChan.repeatCounter ≠ 0)
    (hstart : s.trackStart s.curChan.trackId = .ok w) :
    doReturn s = .ok (s.setCur (s.curChan.restart w)) := by
  simp only [doReturn, if_pos hrepeat, hstart]

theorem doReturn_pop (hlast : s.curChan.repeatCounter = 0) (hsp : s.curChan.sp ≠ 0) :
    doReturn s = .ok (s.setCur s.curChan.popCall) := by
  simp only [doReturn, if_neg (not_not.mpr hlast), if_pos hsp]

theorem doReturn_exhaust (hlast : s.curChan.repeatCounter = 0) (hsp : s.curChan.sp = 0) :
    doReturn s = .ok (s.setCur { s.curChan with delay := 0xFFFF }) := by
  simp only [doReturn, if_neg (not_not.mpr hlast), if_neg (not_not.mpr hsp), Config.exhausted]

variable (hroom : s.curChan.cursor.toNat + 1 ≤ 0xFFFF)
include hroom

theorem exec_ret_error {cause : FaultCause} (hrepeat : s.curChan.repeatCounter ≠ 0)
    (hstart : s.trackStart s.curChan.trackId = .error cause) : exec .ret s = .next (s.raise cause) :=
  runInstr_error hroom (doReturn_error (by simpa using hrepeat) (by simpa using hstart))

/-- A restart loads the cursor, so the byte RETURN has fetched leaves no trace in it. -/
theorem exec_ret_restart {w : Word} (hrepeat : s.curChan.repeatCounter ≠ 0)
    (hstart : s.trackStart s.curChan.trackId = .ok w) :
    exec .ret s = .next (s.setCur (s.curChan.restart w)) :=
  (runInstr_ok hroom (doReturn_restart (by simpa using hrepeat) (by simpa using hstart))).trans
    (by simp [Channel.restart, Channel.advance])

/-- A pop loads the cursor too. -/
theorem exec_ret_pop (hlast : s.curChan.repeatCounter = 0) (hsp : s.curChan.sp ≠ 0) :
    exec .ret s = .next (s.setCur s.curChan.popCall) :=
  (runInstr_ok hroom (doReturn_pop (by simpa using hlast) (by simpa using hsp))).trans
    (by simp [Channel.popCall, Channel.advance, Channel.frame])

theorem exec_ret_exhaust (hlast : s.curChan.repeatCounter = 0) (hsp : s.curChan.sp = 0) :
    exec .ret s = .next (s.setCur { s.curChan.advance 1 with delay := 0xFFFF }) :=
  (runInstr_ok hroom (doReturn_exhaust (by simpa using hlast) (by simpa using hsp))).trans (by simp)

end Return

/-- Settles O27: the byte by `decode_ret`, then one equation of RETURN for each clause. -/
theorem returnRestartsPopsOrExhausts : Obligations.ReturnRestartsPopsOrExhausts := by
  unfold Obligations.ReturnRestartsPopsOrExhausts
  refine ⟨⟨rfl, decode_ret⟩, fun s hroom => ⟨?fault, ?restart, ?pop, ?exhaust⟩⟩
  case fault =>
    exact fun hrepeat cause hstart => ⟨_, exec_ret_error hroom hrepeat hstart, takesFault_raise s cause⟩
  case restart =>
    exact fun hrepeat w hstart => ⟨_, exec_ret_restart hroom hrepeat hstart, onlyCur_setCur s _⟩
  case pop => exact fun hlast hsp => ⟨_, exec_ret_pop hroom hlast hsp, onlyCur_setCur s _⟩
  case exhaust => exact fun hlast hsp => ⟨_, exec_ret_exhaust hroom hlast hsp, onlyCur_setCur s _⟩

end Sys2Proof.Machine
end

section
/-! The effect processors (46_effect_processors.md R240 to R259). The parts that processors share come first:
`EveryN`, the clamping rule and the move of a target; then, for each processor, one equation for the gate, one
for a tick that only counts and one for a tick that fires. -/

namespace Sys2Proof.Machine

/-! ### `EveryN` and the clamping rule -/

theorem everyN_fires {k : Byte} {n : Nat} (h : n ≤ k.toNat + 1) : everyN k n = (true, 0) :=
  if_pos h

theorem everyN_counts {k : Byte} {n : Nat} (h : k.toNat + 1 < n) : everyN k n = (false, k + 1) := by
  have hcount : BitVec.ofNat 8 (k.toNat + 1) = k + 1 := by simp [BitVec.ofNat_add]
  rw [everyN, if_neg (Nat.not_le.mpr h), hcount]

/-- `clamp` is the usual maximum of a minimum (00_scope.md R11). -/
theorem clamp_eq_max_min {v lo hi : Int} (h : lo ≤ hi) : clamp v lo hi = max lo (min hi v) := by
  unfold clamp; split_ifs <;> omega

/-- `boundVol` on both sides of the unbounded bit (R242). -/
theorem boundVol_spec (unbounded : Bool) (v : Int) :
    (unbounded = false → ((boundVol unbounded v).toNat : Int) = max 0 (min 63 v)) ∧
    (unbounded = true → boundVol unbounded v = BitVec.ofInt 8 v) := by
  constructor <;> rintro rfl
  · exact clampVol_toNat v
  · rfl

/-- `boundFreq` on both sides of the unbounded bit (R242). -/
theorem boundFreq_spec (unbounded : Bool) (v : Int) :
    (unbounded = false → ((boundFreq unbounded v).toNat : Int) = max 0 (min 9397 v)) ∧
    (unbounded = true → boundFreq unbounded v = BitVec.ofInt 16 v) := by
  constructor <;> rintro rfl
  · exact clampFreq_toNat v
  · rfl

section Move

variable (c : Channel) (unbounded : Bool) (d : Int)

theorem move_volume :
    c.move false unbounded d = { c with volume := boundVol unbounded (c.volume.toNat + d) } := rfl

theorem move_frequency :
    c.move true unbounded d = { c with frequency := boundFreq unbounded (c.frequency.toNat + d) } := rfl

/-- A move writes nothing but its two possible targets. -/
theorem move_writes (onFreq : Bool) :
    c.move onFreq unbounded d =
      { c with
        volume := (c.move onFreq unbounded d).volume
        frequency := (c.move onFreq unbounded d).frequency } := by
  cases onFreq <;> rfl

end Move

/-! ### The slide (R243) -/

section Slide

variable {c : Channel}

theorem slide_gate (h : c.slideStep = 0) : c.slide = c := if_pos h

theorem slide_counts (hstep : c.slideStep ≠ 0) (h : c.slideCount.toNat + 1 < c.slideConfig.toNat % 64) :
    c.slide = { c with slideCount := c.slideCount + 1 } := by
  rw [Channel.slide, if_neg hstep, slidePeriod_eq, everyN_counts h]
  rfl

theorem slide_fires (hstep : c.slideStep ≠ 0) (h : c.slideConfig.toNat % 64 ≤ c.slideCount.toNat + 1) :
    c.slide = { c with slideCount := 0 }.move c.slideOnFreq c.slideUnbounded c.slideStep.toInt := by
  rw [Channel.slide, if_neg hstep, slidePeriod_eq, everyN_fires h]
  rfl

end Slide

/-- An unbounded sum with a signed step is the sum at the register's width (R242). -/
theorem ofInt_toNat_add_toInt {w v : Nat} (x : BitVec w) (step : BitVec v) :
    BitVec.ofInt w (x.toNat + step.toInt) = x + step.signExtend w :=
  ofInt_toNat_add x step.toInt

/-- Settles O31: one equation of the slide for each clause; a firing one moves the target that
`slideConfig[6]` names, by the clamping rule. -/
theorem slideMovesItsTarget : Obligations.SlideMovesItsTarget := by
  unfold Obligations.SlideMovesItsTarget
  intro c
  refine ⟨slide_gate, slide_counts, fun hstep hfire => ?_⟩
  rw [slide_fires hstep hfire]
  constructor <;> intro htarget
  · obtain ⟨hclamp, hwrap⟩ := boundVol_spec c.slideUnbounded (c.volume.toNat + c.slideStep.toInt)
    rw [show c.slideOnFreq = false from htarget, move_volume]
    refine ⟨_, rfl, hclamp, fun hunbounded => (hwrap hunbounded).trans ?_⟩
    rw [ofInt_toNat_add_toInt, BitVec.signExtend_eq]
  · obtain ⟨hclamp, hwrap⟩ := boundFreq_spec c.slideUnbounded (c.frequency.toNat + c.slideStep.toInt)
    rw [show c.slideOnFreq = true from htarget, move_frequency]
    exact ⟨_, rfl, hclamp, fun hunbounded => (hwrap hunbounded).trans (ofInt_toNat_add_toInt _ _)⟩

/-! ### The arpeggio and the note cut (R248) -/

/-- The phase after phase 0 is 1, skipping or cut. -/
theorem nextArpPhase_zero (skipThird cut : Bool) : nextArpPhase 0 skipThird cut = 1 := rfl

theorem nextArpPhase_one_plain : nextArpPhase 1 false false = 2 := rfl

/-- Phase 1 is the last one where the third is skipped. -/
theorem nextArpPhase_one_skip (cut : Bool) : nextArpPhase 1 true cut = 0 := rfl

/-- A note cut has the phases 0 and 1 only. -/
theorem nextArpPhase_cut {p : BitVec 2} (hp : p ≠ 0) (skipThird : Bool) :
    nextArpPhase p skipThird true = 0 := by
  rw [nextArpPhase, if_neg hp, if_neg fun h => nomatch h.2.2]

/-- From the third phase, or the unused fourth, the machine goes back to phase 0. -/
theorem nextArpPhase_of_two_le {p : BitVec 2} (hp : 2 ≤ p.toNat) (skipThird cut : Bool) :
    nextArpPhase p skipThird cut = 0 := by
  have h0 : p ≠ 0 := by bv_omega
  have h1 : p ≠ 1 := by bv_omega
  rw [nextArpPhase, if_neg h0, if_neg fun h => h1 h.1]

section Arpeggio

variable {c : Channel}

theorem noteCut_eq_true (h : c.arpNotes = 0xFF) : c.noteCut = true := beq_iff_eq.mpr h

theorem noteCut_eq_false_iff : c.noteCut = false ↔ c.arpNotes ≠ 0xFF := beq_eq_false_iff_ne

variable (p : Params)

/-- Phase 1 of a note cut is silence. -/
theorem arpFreq_one_cut (hcut : c.noteCut = true) : c.arpFreq p 1 = 0 := if_pos ⟨hcut, rfl⟩

/-- Phase 0 sounds the channel's note, in a note cut as well. -/
theorem arpFreq_zero : c.arpFreq p 0 = noteFreq p (clampNote (c.note.toNat + c.transpose.toInt)) := by
  simp [Channel.arpFreq, Channel.arpBase]

theorem arpFreq_one (hcut : c.noteCut = false) :
    c.arpFreq p 1 =
      noteFreq p (clampNote (c.note.toNat + c.arpNotes.toNat / 16 + c.transpose.toInt)) := by
  simp [Channel.arpFreq, Channel.arpBase, hcut, arpHi_eq]

theorem arpFreq_two :
    c.arpFreq p 2 =
      noteFreq p (clampNote (c.note.toNat + c.arpNotes.toNat / 16 + c.arpNotes.toNat % 16
        + c.transpose.toInt)) := by
  simp [Channel.arpFreq, Channel.arpBase, arpHi_eq, arpLo_eq]

theorem arpCut_gate (h : c.arpNotes = 0 ∨ c.note = 0) : c.arpCut p = c := if_pos h

variable (hnotes : c.arpNotes ≠ 0) (hnote : c.note ≠ 0)
include hnotes hnote

theorem arpCut_counts (h : c.arpTick.toNat < c.arpTiming.toNat % 32) :
    c.arpCut p = { c with arpTick := c.arpTick + 1 } := by
  rw [Channel.arpCut, if_neg (not_or.mpr ⟨hnotes, hnote⟩), arpThreshold_toNat, if_pos h]

theorem arpCut_fires (h : c.arpTiming.toNat % 32 ≤ c.arpTick.toNat) :
    c.arpCut p =
      { c with
        arpTick := 0
        arpPhase := nextArpPhase c.arpPhase c.arpSkipThird c.noteCut
        frequency := c.arpFreq p (nextArpPhase c.arpPhase c.arpSkipThird c.noteCut) } := by
  rw [Channel.arpCut, if_neg (not_or.mpr ⟨hnotes, hnote⟩), arpThreshold_toNat, if_neg (Nat.not_lt.mpr h)]

end Arpeggio

/-- The next phase, in the registers it is read from. -/
theorem nextArpPhase_eq (c : Channel) :
    nextArpPhase c.arpPhase c.arpSkipThird c.noteCut =
      if c.arpPhase = 0 then 1
      else if c.arpPhase = 1 ∧ c.arpTiming.getLsbD 6 = false ∧ c.arpNotes ≠ 0xFF then 2
      else 0 := by
  simp only [nextArpPhase, noteCut_eq_false_iff, Channel.arpSkipThird]

/-- Settles O32: the gate and the counting tick by their equations; for a firing one, each clause determines
the next phase, and that the frequency. -/
theorem arpeggioCyclesItsPhases : Obligations.ArpeggioCyclesItsPhases := by
  unfold Obligations.ArpeggioCyclesItsPhases
  refine ⟨fun p c => arpCut_gate p, fun p c hnotes hnote =>
    ⟨arpCut_counts p hnotes hnote, fun hfire => ?_⟩⟩
  refine ⟨c.arpFreq p (nextArpPhase c.arpPhase c.arpSkipThird c.noteCut), ?effect, ?silence, ?uncut,
    ?second, ?third, ?first⟩
  case effect => rw [arpCut_fires p hnotes hnote hfire, nextArpPhase_eq]
  case silence =>
    intro hcut hphase
    rw [hphase, nextArpPhase_zero, arpFreq_one_cut p (noteCut_eq_true hcut)]
  case uncut =>
    intro hcut hphase
    rw [noteCut_eq_true hcut, nextArpPhase_cut hphase, arpFreq_zero]
  case second =>
    intro hcut hphase
    rw [hphase, nextArpPhase_zero, arpFreq_one p (noteCut_eq_false_iff.mpr hcut)]
  case third =>
    intro hcut hphase hskip
    rw [hphase, noteCut_eq_false_iff.mpr hcut, show c.arpSkipThird = false from hskip,
      nextArpPhase_one_plain, arpFreq_two]
  case first =>
    rintro - (⟨hphase, hskip⟩ | hphase)
    · rw [hphase, show c.arpSkipThird = true from hskip, nextArpPhase_one_skip, arpFreq_zero]
    · rw [nextArpPhase_of_two_le hphase, arpFreq_zero]

/-! ### Tremolo and vibrato (R253) -/

/-- The signed distance of one tick: the depth, subtracted in phase 0 and added in phase 1. -/
def Channel.treviSwing (c : Channel) : Int :=
  if c.treviPhase then c.treviDepth.toNat else -c.treviDepth.toNat

/-- The channel after its target has moved, with counter and phase still to advance. -/
def Channel.treviMoved (c : Channel) : Channel := c.move c.treviOnFreq c.treviUnbounded c.treviSwing

section Trevi

variable {c : Channel}

theorem trevi_gate (h : c.treviDepth = 0) : c.trevi = c := if_pos h

/-- The whole effect: the target moves on every tick, counter and phase advance at the period. -/
theorem trevi_eq (h : c.treviDepth ≠ 0) :
    c.trevi =
      { c with
        volume := c.treviMoved.volume
        frequency := c.treviMoved.frequency
        treviTick := if c.treviTick.toNat < c.treviConfig.toNat % 32 then c.treviTick + 1 else 0
        treviPhase :=
          if c.treviTick.toNat < c.treviConfig.toNat % 32 then c.treviPhase else !c.treviPhase } := by
  have hmoved : c.trevi =
      if c.treviTick.toNat < c.treviPeriod.toNat then { c.treviMoved with treviTick := c.treviTick + 1 }
      else { c.treviMoved with treviTick := 0, treviPhase := !c.treviPhase } := if_neg h
  have hwrites : c.treviMoved =
      { c with volume := c.treviMoved.volume, frequency := c.treviMoved.frequency } := move_writes c _ _ _
  rw [hmoved, treviPeriod_toNat, hwrites]
  split_ifs <;> rfl

/-- Tremolo moves the volume (`treviConfig[6]` clear). -/
theorem treviMoved_tremolo (h : c.treviConfig.getLsbD 6 = false) :
    c.treviMoved =
      { c with volume := boundVol c.treviUnbounded (c.volume.toNat + c.treviSwing) } := by
  rw [Channel.treviMoved, show c.treviOnFreq = false from h, move_volume]

/-- Vibrato moves the frequency (`treviConfig[6]` set). -/
theorem treviMoved_vibrato (h : c.treviConfig.getLsbD 6 = true) :
    c.treviMoved =
      { c with frequency := boundFreq c.treviUnbounded (c.frequency.toNat + c.treviSwing) } := by
  rw [Channel.treviMoved, show c.treviOnFreq = true from h, move_frequency]

end Trevi

/-- Settles O34: the effect by `trevi_eq`; its target by `treviMoved_tremolo` or `treviMoved_vibrato`, with
the clamping rule. -/
theorem tremoloMovesItsTarget : Obligations.TremoloMovesItsTarget := by
  unfold Obligations.TremoloMovesItsTarget
  refine ⟨fun c => trevi_gate, fun c hdepth =>
    ⟨_, _, trevi_eq hdepth, fun htarget => ?tremolo, fun htarget => ?vibrato⟩⟩
  case tremolo =>
    rw [treviMoved_tremolo htarget]
    exact ⟨rfl, boundVol_spec c.treviUnbounded _⟩
  case vibrato =>
    rw [treviMoved_vibrato htarget]
    exact ⟨rfl, boundFreq_spec c.treviUnbounded _⟩

/-! ### Glissando (R256) and retrigger (R259) -/

/-- A glissando's note stays on: it is clamped into 1..63 (R256). -/
theorem glissandoNote_toNat (n : BitVec 6) (down : Bool) :
    ((glissandoNote n down).toNat : Int) =
      max 1 (min 63 (if down then (n.toNat : Int) - 1 else n.toNat + 1)) := by
  rw [glissandoNote, clamp_eq_max_min (by decide), Config.noteMax, BitVec.toNat_ofInt]
  omega

/-- A note off sounds again as note 1, in either direction (R257). -/
theorem glissandoNote_zero (down : Bool) : glissandoNote 0 down = 1 := by cases down <;> rfl

section GlissandoRetrigger

variable (p : Params) {c : Channel}

theorem glissando_gate (h : c.glisConfig = 0) : c.glissando p = c := if_pos h

theorem glissando_counts (hgate : c.glisConfig ≠ 0)
    (h : c.glisCount.toNat + 1 < c.glisConfig.toNat % 128) :
    c.glissando p = { c with glisCount := c.glisCount + 1 } := by
  rw [Channel.glissando, if_neg hgate, glisPeriod_eq, everyN_counts h]
  rfl

theorem glissando_fires (hgate : c.glisConfig ≠ 0)
    (h : c.glisConfig.toNat % 128 ≤ c.glisCount.toNat + 1) :
    c.glissando p =
      { c with
        glisCount := 0
        note := glissandoNote c.note c.glisDown
        frequency := noteFreq p (glissandoNote c.note c.glisDown) } := by
  rw [Channel.glissando, if_neg hgate, glisPeriod_eq, everyN_fires h]
  rfl

theorem retrigger_gate (h : c.retrigConfig = 0) : c.retrigger p = c := if_pos h

theorem retrigger_counts (hgate : c.retrigConfig ≠ 0)
    (h : c.retrigCount.toNat + 1 < c.retrigConfig.toNat % 4) :
    c.retrigger p = { c with retrigCount := c.retrigCount + 1 } := by
  rw [Channel.retrigger, if_neg hgate, retrigPeriod_eq, everyN_counts h]
  rfl

theorem retrigger_fires (hgate : c.retrigConfig ≠ 0)
    (h : c.retrigConfig.toNat % 4 ≤ c.retrigCount.toNat + 1) :
    c.retrigger p = { c with retrigCount := 0, frequency := noteFreq p c.retrigIndex } := by
  rw [Channel.retrigger, if_neg hgate, retrigPeriod_eq, everyN_fires h]
  rfl

end GlissandoRetrigger

/-- Settles O35: one equation of the two processors for each clause, with the note by `glissandoNote_toNat`
and the index by `retrigIndex_toNat`. -/
theorem glissandoStepsAndRetriggerReloads : Obligations.GlissandoStepsAndRetriggerReloads := by
  unfold Obligations.GlissandoStepsAndRetriggerReloads
  intro p c
  refine ⟨glissando_gate p, retrigger_gate p, glissando_counts p, fun hgate hfire => ?step,
    retrigger_counts p, fun hgate hfire => ?reload⟩
  case step =>
    refine ⟨_, glissando_fires p hgate hfire, glissandoNote_toNat _ _, fun hoff => ?_⟩
    rw [hoff, glissandoNote_zero]
  case reload => exact ⟨_, retrigIndex_toNat c, retrigger_fires p hgate hfire⟩

end Sys2Proof.Machine
end

section
/-! The encoder and the decoder meet (30_encoding.md R101 to R112). A variable-length integer is a run of
continuation bytes and one byte that ends it, and `vleValue` reads back what `encodeVle` writes and the other
way round. An encoding is then of one of two kinds, a fixed format or a first byte with a variable-length
integer (`Spells`), and the obligations are settled kind by kind. -/

namespace Sys2Proof

/-! ### The variable-length integer read back -/

theorem vleValue_append (bytes more : List Byte) :
    vleValue (bytes ++ more) = vleValue bytes * 128 ^ more.length + vleValue more := by
  induction more using List.reverseRecOn with
  | nil => simp
  | append_singleton more b ih =>
    rw [← List.append_assoc, vleValue_concat, vleValue_concat, ih, List.length_append,
      List.length_singleton, pow_succ]
    ring

/-- The front of a run has at most the value of the run. -/
theorem vleValue_le_append (bytes more : List Byte) : vleValue bytes ≤ vleValue (bytes ++ more) := by
  rw [vleValue_append]
  exact le_add_right (Nat.le_mul_of_pos_right _ (by positivity))

theorem vleValue_cons (b : Byte) (bytes : List Byte) :
    vleValue (b :: bytes) = b.toNat % 128 * 128 ^ bytes.length + vleValue bytes := by
  have hb : vleValue [b] = b.toNat % 128 := by simp [vleValue]
  rw [← hb]
  exact vleValue_append [b] bytes

theorem vleValue_lt (bytes : List Byte) : vleValue bytes < 128 ^ bytes.length := by
  induction bytes using List.reverseRecOn with
  | nil => simp
  | append_singleton bytes b ih =>
    rw [vleValue_concat, List.length_append, List.length_singleton, pow_succ]
    omega

/-- A whole spelling of a variable-length integer: continuation bytes, then a byte that ends it. -/
def IsVle (bytes : List Byte) : Prop :=
  ∃ lead last, bytes = lead ++ [last] ∧ (∀ b ∈ lead, 128 ≤ b.toNat) ∧ last.toNat < 128

theorem isVle_singleton {b : Byte} (h : b.toNat < 128) : IsVle [b] := ⟨[], b, rfl, by simp, h⟩

theorem IsVle.cons {b : Byte} {bytes : List Byte} (hb : 128 ≤ b.toNat) (h : IsVle bytes) :
    IsVle (b :: bytes) := by
  obtain ⟨lead, last, rfl, hlead, hlast⟩ := h
  exact ⟨b :: lead, last, rfl, List.forall_mem_cons.mpr ⟨hb, hlead⟩, hlast⟩

/-- A spelling begins with the byte that ends it or with a continuation byte. -/
theorem IsVle.cases {bytes : List Byte} (h : IsVle bytes) :
    (∃ b, bytes = [b] ∧ b.toNat < 128) ∨ ∃ b rest, bytes = b :: rest ∧ 128 ≤ b.toNat ∧ IsVle rest := by
  obtain ⟨lead, last, rfl, hlead, hlast⟩ := h
  cases lead with
  | nil => exact .inl ⟨last, rfl, hlast⟩
  | cons b lead =>
    obtain ⟨hb, hlead⟩ := List.forall_mem_cons.mp hlead
    exact .inr ⟨b, lead ++ [last], rfl, hb, lead, last, rfl, hlead, hlast⟩

/-- The first of two or more bytes the encoder writes is a continuation byte. -/
theorem vleDigit_toNat (v k : Nat) :
    (BitVec.ofNat 8 (128 + v / 128 ^ k % 128)).toNat = 128 + v / 128 ^ k % 128 := by
  rw [BitVec.toNat_ofNat]; omega

theorem isVle_encodeVle (v : Nat) : ∀ k, 1 ≤ k → IsVle (encodeVle v k)
  | 1, _ => isVle_singleton (by rw [BitVec.toNat_ofNat]; omega)
  | k + 2, _ =>
    (isVle_encodeVle v (k + 1) (by omega)).cons (by rw [vleDigit_toNat]; omega)

/-- The encoder writes the value, as far as its bytes hold it. -/
theorem vleValue_encodeVle (v : Nat) : ∀ k, vleValue (encodeVle v k) = v % 128 ^ k
  | 0 => by simp [encodeVle, Nat.mod_one]
  | 1 => by simp [encodeVle, vleValue]
  | k + 2 => by
    have hdigit : (128 + v / 128 ^ (k + 1) % 128) % 128 = v / 128 ^ (k + 1) % 128 := by omega
    rw [encodeVle, vleValue_cons, vleDigit_toNat, hdigit, vleValue_encodeVle v (k + 1),
      Laws.encodeVle_length, pow_succ 128 (k + 1), Nat.mod_mul]
    ring

/-- A spelling is what the encoder writes for its value in its length. -/
theorem IsVle.encodeVle_vleValue : ∀ {bytes : List Byte}, IsVle bytes →
    encodeVle (vleValue bytes) bytes.length = bytes := by
  intro bytes
  induction bytes with
  | nil => rintro ⟨lead, last, h, -⟩; simp at h
  | cons b rest ih =>
    intro h
    rcases h.cases with ⟨_, hb, hlast⟩ | ⟨_, _, hcons, hb, hrest⟩
    · obtain ⟨rfl, rfl⟩ := List.cons.inj hb
      have hvalue : vleValue [b] % 128 = b.toNat := by simp [vleValue]; omega
      simp [encodeVle, hvalue]
    · obtain ⟨rfl, rfl⟩ := List.cons.inj hcons
      obtain ⟨k, hk⟩ : ∃ k, rest.length = k + 1 := by
        obtain ⟨lead, last, rfl, -⟩ := hrest
        exact ⟨lead.length, by simp⟩
      have hlt := hk ▸ vleValue_lt rest
      have hvalue : vleValue (b :: rest) = b.toNat % 128 * 128 ^ (k + 1) + vleValue rest := by
        rw [vleValue_cons, hk]
      have hdiv : vleValue (b :: rest) / 128 ^ (k + 1) = b.toNat % 128 := by
        rw [hvalue, Nat.mul_comm, Nat.mul_add_div (by positivity), Nat.div_eq_of_lt hlt, Nat.add_zero]
      have hmod : vleValue (b :: rest) % 128 ^ (k + 1) = vleValue rest % 128 ^ (k + 1) := by
        rw [hvalue, Nat.mul_add_mod_self_right]
      have hfirst : BitVec.ofNat 8 (128 + b.toNat % 128 % 128) = b :=
        BitVec.eq_of_toNat_eq (by rw [BitVec.toNat_ofNat]; omega)
      rw [List.length_cons, hk, encodeVle, hdiv, hfirst, encodeVle_congr (k + 1) _ _ hmod, ← hk, ih hrest]

/-- The value fits in `k` bytes, and that is all `vleMinBytes` asks of them (R107). -/
theorem vleMinBytes_le {v k : Nat} (hk : 1 ≤ k) (hv : v < 128 ^ k) : vleMinBytes v ≤ k := by
  unfold vleMinBytes
  match k, hk with
  | 1, _ => rw [if_pos (by omega)]
  | 2, _ => split_ifs <;> omega
  | k + 3, _ => split_ifs <;> omega

/-! ### Reading a variable-length integer from a stream -/

/-- What the encoder writes is read back, whatever follows (R106). -/
theorem readVle_encodeVle {v k : Nat} (hv : v < 65536) (hk : vleMinBytes v ≤ k) (rest : List Byte) :
    readVle 0 0 (encodeVle v k ++ rest) = .ok v k := by
  obtain ⟨hk, hlt⟩ := lt_pow_of_vleMinBytes hv hk
  obtain ⟨lead, last, hbytes, hlead, hlast⟩ := isVle_encodeVle v k hk
  have hvalue : vleValue (lead ++ [last]) = v := by
    rw [← hbytes, vleValue_encodeVle, Nat.mod_eq_of_lt hlt]
  have hlength : lead.length + 1 = k := by
    rw [← Laws.encodeVle_length v k, hbytes, List.length_append, List.length_singleton]
  rw [hbytes, List.append_assoc, List.singleton_append, readVle_complete lead last rest hlead hlast,
    hvalue, hlength, if_pos hv]

/-- A stream that ends inside the spelling of a 16-bit value is truncated, never refused: the value before
the missing byte is at most the whole value over 128. -/
theorem readVle_take_encodeVle {v k n : Nat} (hv : v < 65536) (hk : vleMinBytes v ≤ k) (hn : n < k) :
    readVle 0 0 ((encodeVle v k).take n) = .bad .truncated := by
  obtain ⟨hk, hlt⟩ := lt_pow_of_vleMinBytes hv hk
  obtain ⟨lead, last, hbytes, hlead, -⟩ := isVle_encodeVle v k hk
  have hlength : lead.length + 1 = k := by
    rw [← Laws.encodeVle_length v k, hbytes, List.length_append, List.length_singleton]
  have htake : (encodeVle v k).take n = lead.take n := by
    rw [hbytes, List.take_append_of_le_length (by omega)]
  have hsmall : vleValue (lead.take n) < 512 := by
    have hprefix := vleValue_le_append (lead.take n) (lead.drop n)
    have hwhole : vleValue lead * 128 + last.toNat % 128 = v := by
      rw [← vleValue_concat, ← hbytes, vleValue_encodeVle, Nat.mod_eq_of_lt hlt]
    rw [List.take_append_drop] at hprefix
    omega
  have hdrop := vleValue_dropLast_le (lead.take n)
  have hrun := readVle_append (lead.take n) [] fun b hb => hlead b (List.mem_of_mem_take hb)
  rw [List.append_nil, readVle_nil, if_pos (by omega)] at hrun
  rw [htake, hrun]

/-- Every stream is a run of continuation bytes, or has a whole spelling in front. -/
theorem vle_split (bytes : List Byte) :
    (∀ b ∈ bytes, 128 ≤ b.toNat) ∨ ∃ vle rest, bytes = vle ++ rest ∧ IsVle vle := by
  induction bytes with
  | nil => exact .inl (by simp)
  | cons b bytes ih =>
    by_cases hb : b.toNat < 128
    · exact .inr ⟨[b], bytes, rfl, isVle_singleton hb⟩
    · have hb : 128 ≤ b.toNat := Nat.le_of_not_lt hb
      rcases ih with hrun | ⟨vle, rest, rfl, hvle⟩
      · exact .inl (List.forall_mem_cons.mpr ⟨hb, hrun⟩)
      · exact .inr ⟨b :: vle, rest, rfl, hvle.cons hb⟩

/-- A value that is read is a 16-bit one, and stands in the stream as the encoder writes it. -/
theorem readVle_eq_ok {bytes : List Byte} {v k : Nat} (h : readVle 0 0 bytes = .ok v k) :
    v < 65536 ∧ vleMinBytes v ≤ k ∧ ∃ rest, bytes = encodeVle v k ++ rest := by
  rcases vle_split bytes with hrun | ⟨vle, rest, rfl, hvle⟩
  · have hbad := readVle_append bytes [] hrun
    rw [List.append_nil, h, readVle_nil] at hbad
    split at hbad <;> cases hbad
  · obtain ⟨lead, last, hlast, hlead, hend⟩ := id hvle
    have hwhole := readVle_complete lead last rest hlead hend
    rw [← List.singleton_append, ← List.append_assoc, ← hlast, h] at hwhole
    split at hwhole
    · next hfits =>
      cases hwhole
      have hlength : lead.length + 1 = vle.length := by rw [hlast]; simp
      rw [hlength]
      exact ⟨hfits, vleMinBytes_le (by omega) (vleValue_lt vle), rest,
        by rw [hvle.encodeVle_vleValue]⟩
    · cases hwhole

/-! ### The two kinds of encoding -/

/-- How the bytes of an instruction come about: by a fixed format, or as a first byte and a variable-length
integer (R102). -/
inductive Spells (p : Params) : Instr → List Byte → Prop
  | fixed {i : Instr} (op : Byte) (operands : List Byte)
      (complete : (form p op).complete operands = some i) : Spells p i (op :: operands)
  | vle {op : Byte} {mk : Nat → Word → Instr} (form : form p op = .fv mk) (k : Nat) (v : Word)
      (enough : vleMinBytes v.toNat ≤ k) : Spells p (mk k v) (op :: encodeVle v.toNat k)

theorem form_delay (p : Params) {d : Nat} (h1 : 1 ≤ d) (h64 : d ≤ 64) :
    form p (BitVec.ofNat 8 (159 + d)) = .f0 (.delay d) := by
  have hop : (BitVec.ofNat 8 (159 + d)).toNat = 159 + d := by rw [BitVec.toNat_ofNat]; omega
  simp only [form, hop, Config.shortDelayBias]
  rw [if_neg (by omega), if_neg (by omega), if_pos (by omega), Nat.add_sub_cancel_left]

/-- Operand bytes as many as `RESERVED_LEN` says complete a RESERVED first byte (R118). -/
theorem form_reserved_complete {p : Params} {op : Byte} {operands : List Byte}
    (hlo : 225 ≤ op.toNat) (hhi : op.toNat < 252) (hlength : operands.length = reservedOperands p op) :
    (form p op).complete operands = some (.reserved op operands) := by
  have hform : form p op = reservedForm p op := by
    simp only [form]
    rw [if_neg (by omega), if_neg (by omega), if_neg (by omega), if_neg (by omega), if_pos hhi]
  have hle := reservedOperands_le p op
  rw [hform, reservedForm, ← hlength]
  match operands with
  | [] | [_] | [_, _] => rfl
  | _ :: _ :: _ :: _ => simp at hlength; omega

/-- The encoding of a well-formed instruction is of one of the two kinds. -/
theorem encode_spells {p : Params} {i : Instr} (h : i.wf p = true) : Spells p i (encode i) := by
  cases i with
  | note n =>
    have hop : (n.setWidth 8).toNat = n.toNat := by rw [BitVec.toNat_setWidth]; omega
    exact .fixed _ [] (by rw [Machine.form_note p hop, Form.complete])
  | reservedFx op => exact .fixed op [] (by rw [form_unassignedFx p h, Form.complete])
  | delay d =>
    simp only [Instr.wf, Bool.and_eq_true, decide_eq_true_eq] at h
    exact .fixed _ [] (by rw [Config.shortDelayBias, form_delay p h.1 h.2, Form.complete])
  | reserved op operands =>
    simp only [Instr.wf, Bool.and_eq_true, decide_eq_true_eq, beq_iff_eq] at h
    obtain ⟨⟨hlo, hhi⟩, hlength⟩ := h
    exact .fixed op operands (form_reserved_complete hlo hhi hlength)
  | longDelay k v => exact .vle (op := 0xE0) rfl k v (of_decide_eq_true h)
  | data k len => exact .vle (op := 0xFF) rfl k len (of_decide_eq_true h)
  | _ => exact .fixed _ _ rfl

/-- Settles O1: by `encode_spells`, with `decode_of_complete` for a fixed format and `readVle_encodeVle` for
a variable-length integer. -/
theorem decodeOfEncodeIsTheInstruction : Obligations.DecodeOfEncodeIsTheInstruction := by
  unfold Obligations.DecodeOfEncodeIsTheInstruction
  intro p i rest hwf
  have hspells := encode_spells hwf
  generalize encode i = bytes at hspells ⊢
  cases hspells with
  | fixed op operands hcomplete => exact decode_of_complete hcomplete rest
  | @vle op mk hform k v hk =>
    simp [decode, hform, readVle_encodeVle v.isLt hk, decodedAs]

/-- Settles O3: by `encode_spells`, with `decode_take_of_complete` for a fixed format and
`readVle_take_encodeVle` for a variable-length integer; of no bytes at all nothing is fetched. -/
theorem properPrefixIsTruncated : Obligations.ProperPrefixIsTruncated := by
  unfold Obligations.ProperPrefixIsTruncated
  intro p i n hwf hn
  cases n with
  | zero => rfl
  | succ n =>
    have hspells := encode_spells hwf
    generalize encode i = bytes at hspells hn ⊢
    cases hspells with
    | fixed op operands hcomplete => exact decode_take_of_complete hcomplete (Nat.lt_of_succ_lt_succ hn)
    | @vle op mk hform k v hk =>
      have hn : n < k := by simpa [Laws.encodeVle_length] using hn
      simp [decode, hform, readVle_take_encodeVle v.isLt hk hn]

/-! ### From the decoder back to the encoding -/

/-- Whatever completes the form of a first byte is well formed and is encoded as that byte and what completed
it. -/
def Form.Reencodes (p : Params) (op : Byte) : Form → Prop
  | .f0 i => i.wf p = true ∧ encode i = [op]
  | .f1 mk => ∀ a, (mk a).wf p = true ∧ encode (mk a) = [op, a]
  | .f2 mk => ∀ a b, (mk a b).wf p = true ∧ encode (mk a b) = [op, a, b]
  | .fv mk => ∀ k v, vleMinBytes v.toNat ≤ k →
      (mk k v).wf p = true ∧ encode (mk k v) = op :: encodeVle v.toNat k

/-- A byte is known by its number. -/
theorem byte_eq_ofNat {op : Byte} {n : Nat} (h : op.toNat = n) : op = BitVec.ofNat 8 n := by
  rw [← h, BitVec.ofNat_toNat, BitVec.setWidth_eq]

theorem setupForm_reencodes (p : Params) {op : Byte} (hlo : 64 ≤ op.toNat) (hhi : op.toNat < 160) :
    (setupForm op).Reencodes p op := by
  unfold setupForm
  split
  case h_24 =>
    simp only [imp_false] at *
    refine ⟨?_, rfl⟩
    rw [Instr.wf, isUnassignedFx_iff]
    omega
  all_goals
    next hop =>
      rw [byte_eq_ofNat hop]
      simp [Form.Reencodes, Instr.wf, encode]

theorem reservedForm_reencodes {p : Params} {op : Byte} (hlo : 225 ≤ op.toNat) (hhi : op.toNat < 252) :
    (reservedForm p op).Reencodes p op := by
  have hwf : ∀ operands : List Byte, operands.length = reservedOperands p op →
      (Instr.reserved op operands).wf p = true := fun operands hlength => by
    simp [Instr.wf, hlo, hhi, hlength]
  have hle := reservedOperands_le p op
  unfold reservedForm
  split
  · next h => exact ⟨hwf [] h.symm, rfl⟩
  · next h => exact fun a => ⟨hwf [a] h.symm, rfl⟩
  · next h0 h1 =>
    have h2 : reservedOperands p op = 2 := by
      simp only [imp_false] at h0 h1
      omega
    exact fun a b => ⟨hwf [a, b] h2.symm, rfl⟩

/-- Every first byte reencodes, class by class (R101). -/
theorem form_reencodes (p : Params) (op : Byte) : (form p op).Reencodes p op := by
  have hlt : op.toNat < 256 := op.isLt
  simp only [form]
  split_ifs with hnote hsetup hdelay hlong hreserved hcall hrepeat hret
  · refine ⟨rfl, ?_⟩
    have hop : op.toNat = (op.setWidth 6).toNat := by rw [BitVec.toNat_setWidth]; omega
    exact Machine.encode_note hop
  · exact setupForm_reencodes p (Nat.le_of_not_lt hnote) hsetup
  · simp only [Config.shortDelayBias]
    refine ⟨by simp only [Instr.wf, Bool.and_eq_true, decide_eq_true_eq]; omega, ?_⟩
    rw [encode, Config.shortDelayBias, Nat.add_sub_cancel' (by omega), ← byte_eq_ofNat rfl]
  · rw [byte_eq_ofNat hlong]
    exact fun k v hk => ⟨decide_eq_true hk, rfl⟩
  · exact reservedForm_reencodes (by omega) hreserved
  · rw [byte_eq_ofNat hcall]
    exact fun a => ⟨rfl, rfl⟩
  · rw [byte_eq_ofNat hrepeat]
    exact fun a b => ⟨rfl, rfl⟩
  · rw [byte_eq_ofNat hret]
    exact ⟨rfl, rfl⟩
  · rw [byte_eq_ofNat (show op.toNat = 255 by omega)]
    exact fun k v hk => ⟨decide_eq_true hk, rfl⟩

/-- Settles O2: by `form_reencodes`, for each format of the first byte; `readVle_eq_ok` gives the bytes of a
variable-length integer. -/
theorem decodedInstructionReencodes : Obligations.DecodedInstructionReencodes := by
  unfold Obligations.DecodedInstructionReencodes
  intro p bytes i n h
  cases bytes with
  | nil => cases h
  | cons op rest =>
    have hform := form_reencodes p op
    simp only [decode, decodedAs] at h
    cases hf : form p op with
    | f0 j =>
      rw [hf] at h hform
      cases h
      exact ⟨hform.1, rfl, rest, by rw [hform.2]; rfl⟩
    | f1 mk =>
      rw [hf] at h hform
      match rest, h with
      | a :: rest, rfl => exact ⟨(hform a).1, rfl, rest, by rw [(hform a).2]; rfl⟩
    | f2 mk =>
      rw [hf] at h hform
      match rest, h with
      | a :: b :: rest, rfl => exact ⟨(hform a b).1, rfl, rest, by rw [(hform a b).2]; rfl⟩
    | fv mk =>
      rw [hf] at h hform
      cases hread : readVle 0 0 rest with
      | bad e => simp only [hread] at h; cases h
      | ok v k =>
        simp only [hread] at h
        cases h
        obtain ⟨hv, hk, tail, rfl⟩ := readVle_eq_ok hread
        have hvalue : (BitVec.ofNat 16 v).toNat = v := by rw [BitVec.toNat_ofNat]; omega
        obtain ⟨hwf, hencode⟩ := hform k (BitVec.ofNat 16 v) (by rwa [hvalue])
        exact ⟨hwf, rfl, tail, by rw [hencode, hvalue]; rfl⟩

/-- Settles O5: the words of the spec's examples, each a closed computation of the decoder. -/
theorem specExampleWordsDecode : Obligations.SpecExampleWordsDecode := by
  unfold Obligations.SpecExampleWordsDecode
  decide

end Sys2Proof
end

section
/-! Fetching (30_encoding.md R103): the stream a channel can fetch from, and the step that runs what the
decoder reads in it or takes the fault of a fetch that fails. -/

namespace Sys2Proof.Machine

/-- A stream that ends, at its limit or at an address that is not admitted, is the bytes before the end. -/
theorem Memory.stream_eq_take {m : Memory} {bs : List Byte} : ∀ {a n : Nat},
    (∀ j (h : j < bs.length), Memory.read m (a + j) = some bs[j]) →
    (Memory.read m (a + bs.length) = none ∨ n ≤ bs.length) → Memory.stream m a n = bs.take n := by
  induction bs with
  | nil =>
    rintro a n - (hnone | hn)
    · cases n with
      | zero => rfl
      | succ n => simp [Memory.stream, show Memory.read m a = none from hnone]
    · obtain rfl : n = 0 := Nat.le_zero.mp hn
      rfl
  | cons b bs ih =>
    intro a n hreads hend
    cases n with
    | zero => rfl
    | succ n =>
      have hfirst : Memory.read m a = some b := hreads 0 (Nat.zero_lt_succ _)
      have hrest : Memory.stream m (a + 1) n = bs.take n := by
        refine ih (fun j hj => ?_) ?_
        · rw [Nat.add_right_comm, Nat.add_assoc]
          exact hreads (j + 1) (Nat.succ_lt_succ hj)
        · rw [Nat.add_right_comm, Nat.add_assoc]
          exact hend.imp_right Nat.le_of_succ_le_succ
      simp [Memory.stream, hfirst, hrest]

/-- Where an instruction's bytes stand and its cursor stays below 0xFFFF, it is fetched (R71, R103). -/
theorem fetch_of_holdsAt {s : State} {i : Instr} (hwf : i.wf s.params = true)
    (hholds : HoldsAt s.song (s.trackBase.toNat + s.curChan.cursor.toNat) (encode i))
    (hroom : s.curChan.cursor.toNat + (encode i).length ≤ 0xFFFF) : s.fetch = .ok i i.size := by
  have hlimit : (encode i).length ≤ Config.cursorMax - s.curChan.cursor.toNat := by
    rw [Config.cursorMax]; omega
  obtain ⟨rest, hbytes⟩ := Memory.stream_of_reads hholds hlimit
  rw [State.fetch, State.instrBytes, State.fetchAddr, hbytes]
  exact decodeOfEncodeIsTheInstruction s.params i rest hwf

/-- Where the bytes of an instruction end too early, nothing but `truncated` is fetched (R103). -/
theorem fetch_truncated_of_take {s : State} {i : Instr} {n : Nat} (hwf : i.wf s.params = true)
    (hn : n < (encode i).length)
    (hholds : HoldsAt s.song (s.trackBase.toNat + s.curChan.cursor.toNat) ((encode i).take n))
    (hend : Memory.read s.song (s.trackBase.toNat + s.curChan.cursor.toNat + n) = none ∨
      0xFFFF ≤ s.curChan.cursor.toNat + n) : s.fetch = .bad .truncated := by
  have hlength : ((encode i).take n).length = n := by rw [List.length_take]; omega
  have hlimit : Memory.read s.song
        (s.trackBase.toNat + s.curChan.cursor.toNat + ((encode i).take n).length) = none ∨
      Config.cursorMax - s.curChan.cursor.toNat ≤ ((encode i).take n).length := by
    rw [hlength, Config.cursorMax]
    exact hend.imp_right fun h => by omega
  rw [State.fetch, State.instrBytes, State.fetchAddr, Memory.stream_eq_take hholds hlimit,
    List.take_take]
  exact properPrefixIsTruncated s.params i _ hwf (lt_of_le_of_lt (min_le_right _ _) hn)

/-- Without a first byte to fetch the stream is empty (R103, 60_exceptions.md R296). -/
theorem fetch_truncated_of_no_byte {s : State}
    (h : Memory.read s.song (s.trackBase.toNat + s.curChan.cursor.toNat) = none ∨
      s.curChan.cursor = 0xFFFF) : s.fetch = .bad .truncated := by
  have hlimit : Memory.read s.song (s.trackBase.toNat + s.curChan.cursor.toNat + ([] : List Byte).length)
        = none ∨ Config.cursorMax - s.curChan.cursor.toNat ≤ ([] : List Byte).length :=
    h.imp_right fun hcursor => by rw [hcursor]; decide
  rw [State.fetch, State.instrBytes, State.fetchAddr, Memory.stream_eq_take (by simp) hlimit,
    List.take_nil]
  rfl

theorem interpretStep_of_fetch {s t : State} {i : Instr} {n : Nat} (hfetch : s.fetch = .ok i n)
    (hexec : exec i s = .next t) : interpretStep s = .next (t.setPhase .loopTest) := by
  rw [interpretStep, hfetch]
  simp [hexec, toLoopTest]

/-- A fetch that fails takes the fault its failure stands for (R103, R106). -/
theorem interpretStep_of_bad {s : State} {e : DecodeError} (hfetch : s.fetch = .bad e) :
    interpretStep s = .next ((s.raise (decodeCause e)).setPhase .loopTest) := by
  rw [interpretStep, hfetch]
  rfl

/-- Settles O6: `interpretStep_of_fetch` in the interpret phase. -/
theorem stepRunsTheDecodedInstruction : Obligations.StepRunsTheDecodedInstruction := by
  unfold Obligations.StepRunsTheDecodedInstruction
  intro s t i n hreset hphase hfetch hexec
  rw [step_interpret hreset hphase, interpretStep_of_fetch hfetch hexec]
  rfl

/-- Settles O7: O6 with the fetch of `fetch_of_holdsAt`. -/
theorem stepRunsTheBytesAtTheCursor : Obligations.StepRunsTheBytesAtTheCursor := by
  unfold Obligations.StepRunsTheBytesAtTheCursor
  intro s t i hreset hphase hwf hholds hroom hexec
  exact stepRunsTheDecodedInstruction s t i i.size hreset hphase (fetch_of_holdsAt hwf hholds hroom) hexec

/-- A step whose fetch fails takes the fault and goes on to the loop's test. -/
theorem step_of_bad_fetch {s : State} {e : DecodeError} (hreset : s.resetIn = false)
    (hphase : s.phase = .interpret) (hfetch : s.fetch = .bad e) :
    ∃ t, TakesFault s t (decodeCause e) ∧ step s = .next { t with phase := .loopTest } :=
  ⟨s.raise (decodeCause e), takesFault_raise s _,
    (step_interpret hreset hphase).trans (interpretStep_of_bad hfetch)⟩

/-- Settles O8: the first two clauses are cases of the third, by `fetch_truncated_of_no_byte` and
`fetch_truncated_of_take`. -/
theorem fetchOutsideTheImageFaults : Obligations.FetchOutsideTheImageFaults := by
  unfold Obligations.FetchOutsideTheImageFaults
  intro s hreset hphase
  have hfault : ∀ e, s.fetch = .bad e →
      ∃ t, TakesFault s t (decodeCause e) ∧ step s = .next { t with phase := .loopTest } :=
    fun e => step_of_bad_fetch hreset hphase
  refine ⟨fun h => ?_, fun i n hwf hn hholds hend => ?_, hfault .truncated, hfault .vleRange⟩
  · exact hfault .truncated (fetch_truncated_of_no_byte h)
  · exact hfault .truncated (fetch_truncated_of_take hwf hn hholds hend)

end Sys2Proof.Machine
end

section
/-! What every instruction leaves alone and what it reads (47_host_commands.md R279, 60_exceptions.md R292,
R312). What it writes is read off `InstrOutcome`. That it reads only its channel and what the channels share
is a relation between two states (`SameView`) which every instruction's effect respects. -/

namespace Sys2Proof.Machine

/-- Settles O10: every outcome of an instruction writes the channel in service; SET_TEMPO's also `tempo`. -/
theorem instructionsStayInTheirChannel : Obligations.InstructionsStayInTheirChannel := by
  unfold Obligations.InstructionsStayInTheirChannel
  intro i s t hexec
  cases exec_inv hexec with
  | tempo v isTempo ne fits => exact ⟨sameOutside_setCur s _, fun _ => ⟨isTempo, ne⟩⟩
  | _ => exact ⟨sameOutside_setCur s _, fun h => absurd rfl h⟩

/-- Settles O12: of the outcomes, a plain one keeps `delay` unless the instruction is a delay, and only
RETURN's restart, pop and exhaustion remain. -/
theorem onlyDelaysAndReturnWriteDelay : Obligations.OnlyDelaysAndReturnWriteDelay := by
  unfold Obligations.OnlyDelaysAndReturnWriteDelay
  intro i s t hexec hdelay
  cases exec_inv hexec with
  | fault cause => exact absurd (by rw [State.raise_curChan]; rfl) hdelay
  | plain x fits cursor size kept call delay =>
    rw [State.setCur_curChan] at hdelay
    have hisDelay := delay.resolve_left hdelay
    cases i with
    | delay d => exact .inl ⟨d, rfl⟩
    | longDelay k v => exact .inr (.inl ⟨k, v, rfl⟩)
    | _ => exact hisDelay.elim
  | tempo v isTempo ne fits => exact absurd (by rw [State.setTempo_curChan, State.setCur_curChan]; rfl) hdelay
  | call r t w isCall fits size depth start => exact absurd (by rw [State.setCur_curChan]; rfl) hdelay
  | restart w isRet => exact .inr (.inr isRet)
  | pop isRet => exact .inr (.inr isRet)
  | exhaust isRet => exact .inr (.inr isRet)

/-- An instruction that takes no fault leaves the channel's fault register (R292). -/
theorem InstrOutcome.fault_or_kept {i : Instr} {s t : State} (h : InstrOutcome i s t) :
    (∃ cause, t = s.raise cause) ∨ t.curChan.fault = s.curChan.fault := by
  cases h with
  | fault cause => exact .inl ⟨cause, rfl⟩
  | plain x fits cursor size kept => exact .inr (by rw [State.setCur_curChan, kept.fault])
  | tempo => exact .inr (by rw [State.setTempo_curChan, State.setCur_curChan]; rfl)
  | _ => exact .inr (by rw [State.setCur_curChan]; rfl)

/-- Settles O13: by `InstrOutcome.fault_or_kept`; a kept fault register is still 0. -/
theorem instructionFaultsArePrecise : Obligations.InstructionFaultsArePrecise := by
  unfold Obligations.InstructionFaultsArePrecise
  intro i s t hzero hexec hfault
  rcases (exec_inv hexec).fault_or_kept with ⟨cause, rfl⟩ | hkept
  · exact ⟨cause, takesFault_raise s cause⟩
  · exact absurd (hkept.trans hzero) hfault

/-- Settles O14: every instruction runs through `runInstr` with its own size. -/
theorem cursorNeverWraps : Obligations.CursorNeverWraps := by
  unfold Obligations.CursorNeverWraps
  intro i s hfull
  obtain ⟨body, hexec⟩ := exec_eq_runInstr i s
  exact ⟨_, hexec.trans (runInstr_bounds hfull), takesFault_raise s _⟩

/-! ### What an instruction reads -/

/-- The two states show the channel in service the same registers, song, parameters and tempo (R312). -/
structure SameView (s u : State) : Prop where
  curChan : s.curChan = u.curChan
  song : s.song = u.song
  trackCount : s.trackCount = u.trackCount
  params : s.params = u.params
  tempo : s.tempo = u.tempo

/-- Two answers of an instruction's effect that look the same to the channel in service. -/
inductive SameAnswer : Except FaultCause State → Except FaultCause State → Prop
  | ok {s u : State} (view : SameView s u) : SameAnswer (.ok s) (.ok u)
  | error (cause : FaultCause) : SameAnswer (.error cause) (.error cause)

/-- An effect that answers alike from states that look alike. -/
def RespectsView (body : State → Except FaultCause State) : Prop :=
  ∀ s u, SameView s u → SameAnswer (body s) (body u)

/-- `TrackStart` reads the song and the track count only (20_memory.md R80). -/
theorem trackStart_congr {s u : State} (hsong : s.song = u.song) (hcount : s.trackCount = u.trackCount)
    (t : Byte) : s.trackStart t = u.trackStart t := by
  rw [State.trackStart, State.trackStart, hcount, hsong]

section View

variable {s u : State} (h : SameView s u)
include h

theorem SameView.setCur (x : Channel) : SameView (s.setCur x) (u.setCur x) :=
  ⟨by simp, h.song, h.trackCount, h.params, h.tempo⟩

theorem SameView.setTempo (v : Byte) : SameView (s.setTempo v) (u.setTempo v) :=
  ⟨h.curChan, h.song, h.trackCount, h.params, rfl⟩

theorem SameView.raise (cause : FaultCause) : SameView (s.raise cause) (u.raise cause) := by
  rw [State.raise, State.raise, h.curChan]
  exact h.setCur _

theorem SameView.trackStart (t : Byte) : s.trackStart t = u.trackStart t :=
  trackStart_congr h.song h.trackCount t

end View

/-- An instruction whose effect respects the view does so itself. -/
theorem runInstr_sameView {n : Nat} {body : State → Except FaultCause State} (hbody : RespectsView body)
    {s u s' u' : State} (h : SameView s u) (hs : runInstr n body s = .next s')
    (hu : runInstr n body u = .next u') : SameView s' u' := by
  rw [runInstr] at hs hu
  have hanswer := hbody _ _ (h.setCur (s.curChan.advance n))
  rw [h.curChan] at hs hanswer
  split at hs
  · next hroom =>
    rw [if_pos hroom] at hu
    generalize body (s.setCur (u.curChan.advance n)) = a at hanswer hs
    generalize body (u.setCur (u.curChan.advance n)) = b at hanswer hu
    cases hanswer with
    | ok view => cases hs; cases hu; exact view
    | error cause => cases hs; cases hu; exact h.raise cause
  · next hroom =>
    rw [if_neg hroom] at hu
    cases hs; cases hu
    exact h.raise _

/-- A write of the channel in service, computed from it and the parameters. -/
theorem respectsView_update (f : Params → Channel → Channel) :
    RespectsView fun t => .ok (t.setCur (f t.params t.curChan)) := by
  intro s u h
  dsimp only
  rw [h.params, h.curChan]
  exact .ok (h.setCur _)

theorem respectsView_doCall (r t : Byte) : RespectsView (doCall r t) := by
  intro s u h
  rw [doCall, doCall, h.curChan, h.trackStart]
  split
  · exact .error _
  · split
    · exact .error _
    · exact .ok (h.setCur _)

theorem respectsView_doReturn : RespectsView doReturn := by
  intro s u h
  simp only [doReturn, h.curChan, h.trackStart]
  split
  · split
    · exact .error _
    · exact .ok (h.setCur _)
  · split
    · exact .ok (h.setCur _)
    · exact .ok (h.setCur _)

theorem exec_setTempo (t : Byte) (s : State) :
    exec (.setTempo t) s =
      runInstr 2 (fun u => if t = 0 then .error .tempoZero else .ok (u.setTempo t)) s := rfl

theorem exec_longDelay (k : Nat) (v : Word) (s : State) :
    exec (.longDelay k v) s =
      runInstr (1 + k)
        (fun u => if Config.exhausted.toNat ≤ v.toNat + Config.longDelayBias then .error .delayRange
          else .ok (u.setCur
            { u.curChan with delay := BitVec.ofNat 16 (v.toNat + Config.longDelayBias) })) s := rfl

/-- Every instruction runs through `runInstr` with an effect that respects the view. -/
theorem exec_eq_runInstr_respectsView (i : Instr) :
    ∃ n body, (∀ s, exec i s = runInstr n body s) ∧ RespectsView body := by
  have update : ∀ n (f : Channel → Channel),
      ∃ m body, (∀ s, updateChannel n f s = runInstr m body s) ∧ RespectsView body :=
    fun n f => ⟨n, _, fun _ => rfl, respectsView_update fun _ => f⟩
  cases i with
  | note n => exact ⟨1, _, fun _ => rfl, respectsView_update fun p => Channel.noteOn p n⟩
  | setTempo t =>
    refine ⟨2, _, exec_setTempo t, fun s u h => ?_⟩
    split
    · exact .error _
    · exact .ok (h.setTempo t)
  | reservedFx op => exact ⟨1, _, fun _ => rfl, fun _ _ _ => .error _⟩
  | longDelay k v =>
    refine ⟨1 + k, _, exec_longDelay k v, fun s u h => ?_⟩
    dsimp only
    split
    · exact .error _
    · rw [h.curChan]
      exact .ok (h.setCur _)
  | call t => exact ⟨2, _, fun _ => rfl, respectsView_doCall 0 t⟩
  | callRepeat r t => exact ⟨3, _, fun _ => rfl, respectsView_doCall r t⟩
  | ret => exact ⟨1, _, fun _ => rfl, respectsView_doReturn⟩
  | _ =>
    simp only [exec, execSetVolume, execSlideVolOn, execSlideVolAdv, execSlideVolOff, execSlideFreqOn,
      execSlideFreqAdv, execSlideFreqOff, execSetArpeggio, execArpeggioOff, execSetRetrig, execRetrigOff,
      execAddTranspose, execSetTranspose, execTransposeOff, execSetTremolo, execTremoloOff,
      execSetVibrato, execVibratoOff, execSetGlissando, execGlissandoOff, execSetNoteCut, execNoteCutOff,
      execDelay, execReserved, execData]
    exact update _ _

/-- Settles O11: by `runInstr_sameView`, with the effect of `exec_eq_runInstr_respectsView`. -/
theorem instructionsReadOnlyTheirChannel : Obligations.InstructionsReadOnlyTheirChannel := by
  unfold Obligations.InstructionsReadOnlyTheirChannel
  intro i s u s' u' hcurChan hsong hcount hparams htempo hs hu
  obtain ⟨n, body, hexec, hbody⟩ := exec_eq_runInstr_respectsView i
  rw [hexec] at hs hu
  have hview := runInstr_sameView hbody ⟨hcurChan, hsong, hcount, hparams, htempo⟩ hs hu
  exact ⟨hview.curChan, hview.tempo⟩

end Sys2Proof.Machine
end

section
/-! SET_TEMPO, the delays, RESERVED and DATA (42_setup_fx.md R186, 43_delay.md, 44_reserved_and_data.md). -/

namespace Sys2Proof.Machine

/-- Settles O19: the two answers of SET_TEMPO's effect, carried to the instruction by `runInstr_ok` and
`runInstr_error`. -/
theorem setTempoWritesTempo : Obligations.SetTempoWritesTempo := by
  unfold Obligations.SetTempoWritesTempo
  refine fun t s hroom => ⟨fun ht => ?_, fun ht => ?_⟩ <;> rw [exec_setTempo]
  · exact ⟨s.setCur (s.curChan.advance 2), runInstr_ok hroom (if_neg ht), onlyCur_setCur s _⟩
  · exact ⟨s.raise .tempoZero, runInstr_error hroom (if_pos ht), takesFault_raise s _⟩

/-- Settles O21: a row of the model's tables, as for the setup instructions, with the first byte's form by
`form_delay`. -/
theorem delaySetsItsTicks : Obligations.DelaySetsItsTicks := by
  unfold Obligations.DelaySetsItsTicks
  intro d h1 h64
  have hform : ∀ p, (form p (BitVec.ofNat 8 (159 + d))).complete [] = some (.delay d) := fun p => by
    rw [form_delay p h1 h64, Form.complete]
  exact instrRule_of_updateChannel hform rfl rfl (fun _ => rfl) (fun _ _ => rfl)

/-- Settles O22: the two answers of LONG_DELAY's effect; below 65406 the sum stays under the sentinel. -/
theorem longDelayAddsItsBias : Obligations.LongDelayAddsItsBias := by
  unfold Obligations.LongDelayAddsItsBias
  refine fun k v s hroom => ⟨fun hv => ?_, fun hv => ?_⟩ <;> rw [exec_longDelay]
  · have hd : (BitVec.ofNat 16 (v.toNat + 129)).toNat = v.toNat + 129 := by
      rw [BitVec.toNat_ofNat]; omega
    have hne : BitVec.ofNat 16 (v.toNat + 129) ≠ 0xFFFF := by bv_omega
    have hfits : ¬ Config.exhausted.toNat ≤ v.toNat + Config.longDelayBias := by
      simp [Config.exhausted, Config.longDelayBias]; omega
    refine ⟨_, _, runInstr_ok hroom (if_neg hfits), hd, hne, ?_⟩
    rw [State.setCur_setCur, State.setCur_curChan]
    exact onlyCur_setCur s _
  · have hrange : Config.exhausted.toNat ≤ v.toNat + Config.longDelayBias := by
      simp [Config.exhausted, Config.longDelayBias]; omega
    exact ⟨_, runInstr_error hroom (if_pos hrange), takesFault_raise s _⟩

theorem exec_data (k : Nat) (len : Word) (s : State) :
    exec (.data k len) s = updateChannel (1 + k + len.toNat) id s := rfl

theorem countDown_rest {c : Channel} (h : c.delay = 0 ∨ c.delay = 0xFFFF) : c.countDown = c := if_pos h

theorem countDown_counts {c : Channel} (h0 : c.delay ≠ 0) (hx : c.delay ≠ 0xFFFF) :
    c.countDown = { c with delay := c.delay - 1 } :=
  if_neg (not_or.mpr ⟨h0, hx⟩)

/-- Settles O23: by induction on the ticks, one `countDown_counts` each; 0 and the sentinel are fixed points
(`countDown_rest`). -/
theorem delayCountsDownToZero : Obligations.DelayCountsDownToZero := by
  unfold Obligations.DelayCountsDownToZero
  refine ⟨fun c n hx => ?_, fun c n h => Function.iterate_fixed (countDown_rest h) n⟩
  induction n with
  | zero => simp
  | succ n ih =>
    intro hn
    have h0 : BitVec.ofNat 16 (c.delay.toNat - n) ≠ 0 := by bv_omega
    have hne : BitVec.ofNat 16 (c.delay.toNat - n) ≠ 0xFFFF := by bv_omega
    have hone : BitVec.ofNat 16 (c.delay.toNat - n) - 1 = BitVec.ofNat 16 (c.delay.toNat - (n + 1)) := by
      bv_omega
    rw [Function.iterate_succ_apply', ih (by omega), countDown_counts h0 hne]
    dsimp only
    rw [hone]

/-- Settles O24: RESERVED decodes by O1; both instructions have the identity for their effect. -/
theorem reservedAndDataOnlyMoveTheCursor : Obligations.ReservedAndDataOnlyMoveTheCursor := by
  unfold Obligations.ReservedAndDataOnlyMoveTheCursor
  refine ⟨fun p op operands rest hwf => ?_, fun op operands s hroom => ?_, fun k len s => ?_⟩
  · exact decodeOfEncodeIsTheInstruction p _ rest hwf
  · exact ⟨_, updateChannel_ok hroom, onlyCur_setCur s _⟩
  · rw [exec_data]
    exact ⟨fun hroom => ⟨_, updateChannel_ok hroom, onlyCur_setCur s _⟩,
      fun hfull => ⟨_, runInstr_bounds hfull, takesFault_raise s _⟩⟩

end Sys2Proof.Machine
end

section
/-! CALL and RETURN together (45_call_return.md R224 to R230). -/

namespace Sys2Proof.Machine

/-- A track in range whose entry can be read starts at that entry, little-endian (20_memory.md R73, R80). -/
theorem trackStart_ok {s : State} {t lo hi : Byte} (hrange : t.toNat < s.trackCount.toNat)
    (hlo : Memory.read s.song (1 + 2 * t.toNat) = some lo)
    (hhi : Memory.read s.song (1 + 2 * t.toNat + 1) = some hi) : s.trackStart t = .ok (hi ++ lo) := by
  have hread : Memory.read16 s.song (1 + 2 * t.toNat) = some (hi ++ lo) :=
    Memory.read16_eq_some.mpr ⟨lo, hi, hlo, hhi, rfl⟩
  simp [State.trackStart, Nat.not_le.mpr hrange, hread]

/-- Settles O25: `DoCall` in the one case where it enters the track. -/
theorem callPushesAFrameAndJumps : Obligations.CallPushesAFrameAndJumps := by
  unfold Obligations.CallPushesAFrameAndJumps
  intro r t lo hi s hsp hrange hlo hhi
  have hstart := trackStart_ok hrange hlo hhi
  exact ⟨fun hroom => ⟨_, runInstr_doCall_ok hroom hsp hstart, onlyCur_setCur s _⟩,
    fun hroom => ⟨_, runInstr_doCall_ok hroom hsp hstart, onlyCur_setCur s _⟩⟩

/-- Settles O28: a restart finds its track readable, because the counter is not 0 only inside a call; a pop
and an exhausted track raise nothing. -/
theorem returnNeverFaults : Obligations.ReturnNeverFaults := by
  unfold Obligations.ReturnNeverFaults
  rintro s ⟨-, hcall⟩ hroom
  obtain ⟨hdepth0, hreadable, -, -⟩ := hcall s.cur
  by_cases hrepeat : s.curChan.repeatCounter = 0
  · by_cases hsp : s.curChan.sp = 0
    · exact ⟨_, exec_ret_exhaust hroom hrepeat hsp, by rw [State.setCur_curChan]; rfl⟩
    · exact ⟨_, exec_ret_pop hroom hrepeat hsp, by rw [State.setCur_curChan]; rfl⟩
  · obtain ⟨w, hstart⟩ := hreadable fun hsp => hrepeat (hdepth0 hsp).1
    exact ⟨_, exec_ret_restart hroom hrepeat hstart, by rw [State.setCur_curChan]; rfl⟩

/-- The channel `x` stands in the call that `pushCall` made from `c`: the depth and the frames are those
after the push. -/
structure InCallFrom (c x : Channel) : Prop where
  sp : x.sp = c.sp + 1
  frame : x.frame c.sp.toNat = { ret := c.cursor, cnt := c.repeatCounter, trk := c.trackId }

theorem inCallFrom_pushCall {c x : Channel} (hdepth : c.sp ≠ 7) (r t : Byte) (w : Word)
    (hsp : x.sp = (c.pushCall r t w).sp) (hstack : x.stack = (c.pushCall r t w).stack) :
    InCallFrom c x := by
  refine ⟨hsp, ?_⟩
  have hlt : c.sp.toNat < 7 := by bv_omega
  rw [Channel.frame, hstack]
  exact Channel.setFrame_frame_same c hlt _

/-- A pop inside the call restores what the push saved, and the depth (R226, R229). -/
theorem InCallFrom.popCall_eq {c x : Channel} (h : InCallFrom c x) (hdepth : c.sp ≠ 7) :
    x.popCall =
      { x with
        sp := c.sp, cursor := c.cursor, repeatCounter := c.repeatCounter, trackId := c.trackId } := by
  have htop : x.sp.toNat - 1 = c.sp.toNat := by rw [h.sp]; bv_omega
  have hsp : x.sp - 1 = c.sp := by rw [h.sp]; bv_omega
  simp only [Channel.popCall, htop, hsp, h.frame]

theorem InCallFrom.sp_ne_zero {c x : Channel} (h : InCallFrom c x) (hdepth : c.sp ≠ 7) : x.sp ≠ 0 := by
  rw [h.sp]; bv_omega

/-- The RETURN that ends a called track, whatever the track has done to the other registers (R229). -/
theorem exec_ret_ends_call {c : Channel} {v : State} (hcall : InCallFrom c v.curChan) (hdepth : c.sp ≠ 7)
    (hlast : v.curChan.repeatCounter = 0) (hroom : v.curChan.cursor.toNat + 1 ≤ 0xFFFF) :
    ∃ w, exec .ret v = .next w ∧
      OnlyCur v w
        { v.curChan with
          sp := c.sp, cursor := c.cursor, repeatCounter := c.repeatCounter, trackId := c.trackId } := by
  refine ⟨_, exec_ret_pop hroom hlast (hcall.sp_ne_zero hdepth), ?_⟩
  rw [hcall.popCall_eq hdepth]
  exact onlyCur_setCur v _

/-- The state `v` stands in the call of a track that starts at `target`, made from `c`, with `k`
restarts to come. -/
structure InRepeatedCall (c : Channel) (target : Word) (k : Nat) (v : State) : Prop where
  call : InCallFrom c v.curChan
  repeatCounter : v.curChan.repeatCounter = BitVec.ofNat 8 k
  start : v.trackStart v.curChan.trackId = .ok target

/-- Standing in the call passes to every state of the same call. -/
theorem InRepeatedCall.of_sameCall {c : Channel} {target : Word} {k : Nat} {v w : State}
    (h : InRepeatedCall c target k v) (hsame : SameCall v w) : InRepeatedCall c target k w where
  call := ⟨hsame.sp.trans h.call.sp, by rw [Channel.frame, hsame.stack]; exact h.call.frame⟩
  repeatCounter := hsame.repeatCounter.trans h.repeatCounter
  start := by rw [hsame.trackId, trackStart_congr hsame.song hsame.trackCount]; exact h.start

/-- A RETURN with restarts to come takes one off the counter and starts the track again (R227). -/
theorem InRepeatedCall.exec_ret {c : Channel} {target : Word} {k : Nat} {v : State}
    (h : InRepeatedCall c target (k + 1) v) (hk : k + 1 < 256)
    (hroom : v.curChan.cursor.toNat + 1 ≤ 0xFFFF) :
    exec .ret v = .next (v.setCur
      { v.curChan with repeatCounter := BitVec.ofNat 8 k, cursor := target }) := by
  have hne : v.curChan.repeatCounter ≠ 0 := by rw [h.repeatCounter]; bv_omega
  have hone : v.curChan.repeatCounter - 1 = BitVec.ofNat 8 k := by rw [h.repeatCounter]; bv_omega
  rw [exec_ret_restart hroom hne h.start, Channel.restart, hone]

/-- Restarting leaves the state in the call, with one restart fewer. -/
theorem InRepeatedCall.restarted {c : Channel} {target : Word} {k : Nat} {v : State}
    (h : InRepeatedCall c target (k + 1) v) :
    InRepeatedCall c target k
      (v.setCur { v.curChan with repeatCounter := BitVec.ofNat 8 k, cursor := target }) where
  call := ⟨by rw [State.setCur_curChan]; exact h.call.sp, by rw [State.setCur_curChan]; exact h.call.frame⟩
  repeatCounter := by rw [State.setCur_curChan]
  start := by rw [State.setCur_curChan, State.setCur_trackStart]; exact h.start

/-- The state at the `j`-th RETURN has `r - j` restarts to come. -/
theorem inRepeatedCall_of_returns {c : Channel} {r : Byte} {target : Word} {v : Nat → State}
    (hfirst : InRepeatedCall c target r.toNat (v 0))
    (hnext : ∀ j, j < r.toNat → ∀ w, exec .ret (v j) = .next w → SameCall w (v (j + 1)))
    (hroom : ∀ j, j ≤ r.toNat → (v j).curChan.cursor.toNat + 1 ≤ 0xFFFF) :
    ∀ j, j ≤ r.toNat → InRepeatedCall c target (r.toNat - j) (v j) := by
  intro j
  induction j with
  | zero => exact fun _ => hfirst
  | succ j ih =>
    intro hj
    have hstate := ih (by omega)
    rw [show r.toNat - j = r.toNat - (j + 1) + 1 by omega] at hstate
    have hlt := r.isLt
    exact hstate.restarted.of_sameCall
      (hnext j (by omega) _ (hstate.exec_ret (by omega) (hroom j (by omega))))

/-- Settles O29: a CALL leaves the channel in `InCallFrom`, a CALL_REPEAT in `InRepeatedCall`; the restarts
by induction on the RETURNs, the pop by `exec_ret_ends_call`. -/
theorem returnUndoesCall : Obligations.ReturnUndoesCall := by
  unfold Obligations.ReturnUndoesCall
  constructor
  · rintro t s u v hdepth hroom ⟨w, hstart⟩ hexec hsp hstack hrepeat hroomRet
    have hu : exec (.call t) s = _ := runInstr_doCall_ok (r := 0) hroom hdepth hstart
    cases hexec.symm.trans hu
    rw [State.setCur_curChan] at hsp hstack hrepeat
    exact exec_ret_ends_call (c := s.curChan.advance 2)
      (inCallFrom_pushCall hdepth 0 t w hsp hstack) hdepth hrepeat hroomRet
  · intro r t target s u v hdepth hroom hstart hexec hfirst hnext hrooms
    have hu : exec (.callRepeat r t) s = _ := runInstr_doCall_ok (r := r) hroom hdepth hstart
    cases hexec.symm.trans hu
    have hcalled : InRepeatedCall (s.curChan.advance 3) target r.toNat
        (s.setCur ((s.curChan.advance 3).pushCall r t target)) := by
      refine ⟨?_, ?_, ?_⟩
      · rw [State.setCur_curChan]
        exact inCallFrom_pushCall hdepth r t target rfl rfl
      · rw [State.setCur_curChan, BitVec.ofNat_toNat, BitVec.setWidth_eq]
        rfl
      · rw [State.setCur_curChan]
        exact hstart
    have hreturns := inRepeatedCall_of_returns (hcalled.of_sameCall hfirst) hnext hrooms
    have hlt := r.isLt
    constructor
    · intro j hj
      have hstate := hreturns j (by omega)
      rw [show r.toNat - j = r.toNat - (j + 1) + 1 by omega] at hstate
      exact ⟨_, hstate.exec_ret (by omega) (hrooms j (by omega)), onlyCur_setCur (v j) _⟩
    · have hlast := hreturns r.toNat le_rfl
      have hzero : (v r.toNat).curChan.repeatCounter = 0 := by
        rw [hlast.repeatCounter, Nat.sub_self]
        rfl
      exact exec_ret_ends_call hlast.call hdepth hzero (hrooms _ le_rfl)

end Sys2Proof.Machine
end

section
/-! What a step can do, said once (`StepOutcome`); every invariant over the step relation is a case analysis
of it. -/

namespace Sys2Proof.Machine

/-! ### The micro-steps that several phases share -/

/-- A turn of the interpreter loop does what an instruction can do: a fetch that fails takes a fault, as any
instruction can. -/
theorem interpretStep_outcome (s : State) :
    ∃ i t, interpretStep s = .next (t.setPhase .loopTest) ∧ InstrOutcome i s t := by
  obtain ⟨t, hstep, ⟨cause, rfl⟩ | ⟨i, houtcome⟩⟩ := interpretStep_spec s
  · exact ⟨.ret, _, hstep, .fault cause⟩
  · exact ⟨i, t, hstep, houtcome⟩

/-- Publishing a frequency writes one frequency register, never that of channel 3 (40_tick_routine.md R138). -/
theorem publishFreqStep_spec (s : State) :
    s.publishFreqStep = s.setPhase .publishVol ∨
    (s.cur ≠ 3 ∧ s.muted s.cur = false ∧
      s.publishFreqStep = (s.setOscFreq s.cur s.curChan.frequency).setPhase .publishVol) := by
  unfold State.publishFreqStep
  split
  · exact .inl rfl
  · next h =>
    rw [not_or, Bool.not_eq_true] at h
    exact .inr ⟨h.2, h.1, rfl⟩

/-- Publishing a volume writes one volume register, or none (R138). -/
theorem publishVolStep_spec (s : State) :
    s.publishVolStep = s.nextChannel ∨
    s.publishVolStep = (s.setOscVol s.cur s.publishedVol).nextChannel := by
  unfold State.publishVolStep
  split
  · exact .inl rfl
  · exact .inr rfl

/-- An idle block with an event pending takes one of them and begins it (60_exceptions.md R301). -/
theorem idleStep_spec (s : State) :
    (s.pending = [] ∧ s.idleStep = s) ∨
    ∃ k n, ∃ h : k < s.pending.length,
      s.idleStep = { s with pending := s.pending.eraseIdx k, choices := n }.startEvent (s.pending[k]'h) := by
  unfold State.idleStep
  match hpending : s.pending with
  | [] => exact .inl ⟨rfl, rfl⟩
  | [e] => exact .inr ⟨0, s.choices, Nat.one_pos, rfl⟩
  | e :: e' :: rest =>
    have hk : Config.arbiter s.choices % ((e' :: rest).length + 1) < (e :: e' :: rest).length :=
      Nat.mod_lt _ (Nat.succ_pos _)
    refine .inr ⟨_, s.choices + 1, hk, ?_⟩
    simp only [List.getElem?_eq_getElem hk, Option.getD_some]

/-- Everything a step can do to a state. -/
inductive StepOutcome (s : State) : State → Prop
  /-- The reset action (70_reset_and_hazards.md R331). -/
  | reset (asserted : s.resetIn = true) : StepOutcome s s.resetAction
  /-- An idle block with nothing pending. -/
  | rests (at_ : s.phase = .idle) : StepOutcome s s
  /-- One of the pending events begins. -/
  | begins (at_ : s.phase = .idle) (k n : Nat) (h : k < s.pending.length) :
      StepOutcome s
        ({ s with pending := s.pending.eraseIdx k, choices := n }.startEvent (s.pending[k]'h))
  /-- A channel is passed over: inactive or faulted at its gate, or faulted in the loop (R131). -/
  | skips (at_ : s.phase = .service ∨ s.phase = .loopTest) : StepOutcome s s.nextChannel
  /-- The effects of a channel run. -/
  | serves (at_ : s.phase = .service) (active : s.active s.cur = true) (sound : s.curChan.fault = 0) :
      StepOutcome s ((s.setCur (s.curChan.runEffects s.params)).setPhase .sequence)
  /-- A delay counts this tick. -/
  | waits (at_ : s.phase = .sequence ∨ s.phase = .loopTest ∧ s.curChan.fault = 0) :
      StepOutcome s ((s.setCur s.curChan.countDown).setPhase .publishFreq)
  /-- No delay: the next instruction is due. -/
  | fetches (at_ : s.phase = .sequence ∨ s.phase = .loopTest ∧ s.curChan.fault = 0) :
      StepOutcome s (s.setPhase .interpret)
  /-- One turn of the interpreter loop. -/
  | turns (at_ : s.phase = .interpret) {i : Instr} {t : State} (instr : InstrOutcome i s t) :
      StepOutcome s (t.setPhase .loopTest)
  /-- The frequency is published, or not while muted and not on channel 3 (R138). -/
  | publishesFreq (at_ : s.phase = .publishFreq) : StepOutcome s s.publishFreqStep
  /-- The volume is published, or not while muted (R138). -/
  | publishesVol (at_ : s.phase = .publishVol) : StepOutcome s s.publishVolStep
  /-- The block stops itself (R140). -/
  | stops (at_ : s.phase = .autoStopCheck) : StepOutcome s s.stopActions
  /-- The tick is over (R140). -/
  | ends (at_ : s.phase = .autoStopCheck) : StepOutcome s { s with phase := .idle, cur := 0 }
  /-- A frequency register is zeroed. -/
  | silencesFreq {k : Silencing} (at_ : s.phase = .silenceFreq k) : StepOutcome s (s.silenceFreqStep k)
  /-- A volume register is zeroed. -/
  | silencesVol {k : Silencing} (at_ : s.phase = .silenceVol k) : StepOutcome s (s.silenceVolStep k)
  /-- `play` reads the header and seeds the channels (47_host_commands.md R271). -/
  | seeds (at_ : s.phase = .playSeed) : StepOutcome s s.playSeedStep

theorem serviceStep_outcome {s : State} (hphase : s.phase = .service) : StepOutcome s s.serviceStep := by
  unfold State.serviceStep
  split
  · exact .skips (.inl hphase)
  · next h =>
    rw [not_or, Bool.not_eq_false, not_not] at h
    exact .serves hphase h.1 h.2

theorem sequenceStep_outcome {s : State} (hphase : s.phase = .sequence) : StepOutcome s s.sequenceStep := by
  unfold State.sequenceStep
  split
  · exact .waits (.inl hphase)
  · exact .fetches (.inl hphase)

theorem loopTestStep_outcome {s : State} (hphase : s.phase = .loopTest) : StepOutcome s s.loopTestStep := by
  unfold State.loopTestStep
  split
  · exact .skips (.inr hphase)
  · next hfault =>
    rw [not_not] at hfault
    split
    · exact .waits (.inr ⟨hphase, hfault⟩)
    · exact .fetches (.inr ⟨hphase, hfault⟩)

theorem idleStep_outcome {s : State} (hphase : s.phase = .idle) : StepOutcome s s.idleStep := by
  rcases idleStep_spec s with ⟨-, hstep⟩ | ⟨k, n, hk, hstep⟩ <;> rw [hstep]
  · exact .rests hphase
  · exact .begins hphase k n hk

theorem autoStopStep_outcome {s : State} (hphase : s.phase = .autoStopCheck) :
    StepOutcome s s.autoStopStep := by
  unfold State.autoStopStep
  split
  · exact .stops hphase
  · exact .ends hphase

/-- Every step answers a next state, one of those of `StepOutcome`. -/
theorem step_outcome (s : State) : ∃ t, step s = .next t ∧ StepOutcome s t := by
  cases hreset : s.resetIn with
  | true => exact ⟨_, step_reset hreset, .reset hreset⟩
  | false =>
    cases hphase : s.phase with
    | idle => exact ⟨_, step_idle hreset hphase, idleStep_outcome hphase⟩
    | service => exact ⟨_, step_service hreset hphase, serviceStep_outcome hphase⟩
    | sequence => exact ⟨_, step_sequence hreset hphase, sequenceStep_outcome hphase⟩
    | interpret =>
      obtain ⟨i, t, hstep, houtcome⟩ := interpretStep_outcome s
      exact ⟨_, (step_interpret hreset hphase).trans hstep, .turns hphase houtcome⟩
    | loopTest => exact ⟨_, step_loopTest hreset hphase, loopTestStep_outcome hphase⟩
    | publishFreq => exact ⟨_, step_publishFreq hreset hphase, .publishesFreq hphase⟩
    | publishVol => exact ⟨_, step_publishVol hreset hphase, .publishesVol hphase⟩
    | autoStopCheck => exact ⟨_, step_autoStopCheck hreset hphase, autoStopStep_outcome hphase⟩
    | silenceFreq k => exact ⟨_, step_silenceFreq hreset hphase, .silencesFreq hphase⟩
    | silenceVol k => exact ⟨_, step_silenceVol hreset hphase, .silencesVol hphase⟩
    | playSeed => exact ⟨_, step_playSeed hreset hphase, .seeds hphase⟩

/-- The inversion of `step`. -/
theorem step_inv {s t : State} (h : step s = .next t) : StepOutcome s t := by
  obtain ⟨u, hu, houtcome⟩ := step_outcome s
  rw [h] at hu
  cases hu
  exact houtcome

/-- Settles O9: by `step_outcome`. -/
theorem everyStepAnswersANextState : Obligations.EveryStepAnswersANextState := by
  unfold Obligations.EveryStepAnswersANextState
  exact fun s => (step_outcome s).imp fun _ h => h.1

/-! ### What the shared micro-steps leave -/

section NextChannel

variable (s : State)

/-- Going to the next channel writes the place in the event and nothing else. -/
theorem nextChannel_eq : ∃ p c, (p = .autoStopCheck ∨ p = .service) ∧
    s.nextChannel = { s with phase := p, cur := c } := by
  rcases nextChannel_spec s with ⟨-, h⟩ | ⟨-, h⟩
  · exact ⟨_, _, .inl rfl, h⟩
  · exact ⟨_, _, .inr rfl, h⟩

/-- Publishing a frequency writes the Oscillator Output and the phase. -/
theorem publishFreqStep_eq : ∃ osc, s.publishFreqStep = { s with osc := osc, phase := .publishVol } := by
  rcases publishFreqStep_spec s with h | ⟨-, -, h⟩ <;> exact ⟨_, h⟩

/-- Publishing a volume writes the Oscillator Output and the place in the event. -/
theorem publishVolStep_eq : ∃ osc p c, (p = .autoStopCheck ∨ p = .service) ∧
    s.publishVolStep = { s with osc := osc, phase := p, cur := c } := by
  rcases publishVolStep_spec s with h | h <;> rw [h]
  · obtain ⟨p, c, hp, h⟩ := nextChannel_eq s
    exact ⟨s.osc, p, c, hp, h⟩
  · obtain ⟨p, c, hp, h⟩ := nextChannel_eq (s.setOscVol s.cur s.publishedVol)
    exact ⟨_, p, c, hp, h⟩

/-- Zeroing a volume register writes the Oscillator Output and the place in the event; it becomes idle only
at channel index 0. -/
theorem silenceVolStep_eq (k : Silencing) : ∃ osc p c, (p = .idle → c = 0) ∧ p.inService = false ∧
    p.onLiveChannel = false ∧ s.silenceVolStep k = { s with osc := osc, phase := p, cur := c } := by
  unfold State.silenceVolStep
  split
  · exact ⟨_, k.after, 0, fun _ => rfl, by cases k <;> rfl, by cases k <;> rfl, rfl⟩
  · exact ⟨_, .silenceFreq k, s.cur + 1, nofun, rfl, rfl, rfl⟩

/-- A tick that begins writes the place in the event, and one that is dropped nothing. -/
theorem beginTick_spec : s.beginTick = { s with phase := .service, cur := 0 } ∨ s.beginTick = s := by
  unfold State.beginTick
  split
  · exact .inl rfl
  · exact .inr rfl

end NextChannel

theorem startEvent_tick (s : State) : s.startEvent .tick = s.beginTick := rfl

/-- What no event's beginning writes. -/
theorem startEvent_kept (s : State) (e : Event) :
    (s.startEvent e).tempo = s.tempo ∧ (s.startEvent e).trackCount = s.trackCount ∧
      (s.startEvent e).trackBase = s.trackBase ∧ (s.startEvent e).osc = s.osc ∧
      (s.startEvent e).pending = s.pending ∧ (s.startEvent e).resetIn = s.resetIn := by
  cases e with
  | tick =>
    rw [startEvent_tick]
    rcases beginTick_spec s with h | h <;> rw [h] <;> exact ⟨rfl, rfl, rfl, rfl, rfl, rfl⟩
  | _ => exact ⟨rfl, rfl, rfl, rfl, rfl, rfl⟩

/-- What a step inside an event never writes. -/
structure KeptInEvent (s t : State) : Prop where
  song : t.song = s.song
  params : t.params = s.params
  pending : t.pending = s.pending
  resetIn : t.resetIn = s.resetIn

/-- A step is the reset, or the beginning of an event, or leaves what is kept inside an event. -/
theorem StepOutcome.kept {s t : State} (h : StepOutcome s t) :
    (s.resetIn = true ∧ t = s.resetAction) ∨
    (s.phase = .idle ∧ ∃ k n, ∃ hk : k < s.pending.length,
      t = { s with pending := s.pending.eraseIdx k, choices := n }.startEvent (s.pending[k]'hk)) ∨
    KeptInEvent s t := by
  cases h with
  | reset asserted => exact .inl ⟨asserted, rfl⟩
  | begins at_ k n hk => exact .inr (.inl ⟨at_, k, n, hk, rfl⟩)
  | skips =>
    obtain ⟨p, d, -, h⟩ := nextChannel_eq s
    rw [h]
    exact .inr (.inr ⟨rfl, rfl, rfl, rfl⟩)
  | turns _ instr =>
    obtain ⟨-, -, -, -, -, hsong, hparams, -, -, hpending, hreset, -⟩ := instr.kept
    exact .inr (.inr ⟨hsong, hparams, hpending, hreset⟩)
  | publishesFreq =>
    obtain ⟨osc, h⟩ := publishFreqStep_eq s
    rw [h]
    exact .inr (.inr ⟨rfl, rfl, rfl, rfl⟩)
  | publishesVol =>
    obtain ⟨osc, p, d, -, h⟩ := publishVolStep_eq s
    rw [h]
    exact .inr (.inr ⟨rfl, rfl, rfl, rfl⟩)
  | silencesVol =>
    obtain ⟨osc, p, d, -, -, -, h⟩ := silenceVolStep_eq s _
    rw [h]
    exact .inr (.inr ⟨rfl, rfl, rfl, rfl⟩)
  | _ => exact .inr (.inr ⟨rfl, rfl, rfl, rfl⟩)

end Sys2Proof.Machine
end

section
/-! The call-stack discipline (45_call_return.md R228). `ChanOutcome` says what a step can do to one channel;
the discipline then is a fact about one channel and the four ways an instruction moves its stack. -/

namespace Sys2Proof.Machine

/-! ### What a step can do to one channel -/

/-- The song and its track count are as before: tracks start where they started. -/
def SameTracks (s t : State) : Prop := t.song = s.song ∧ t.trackCount = s.trackCount

/-- Everything the step from `s` to `t` can do to channel `c`. -/
inductive ChanOutcome (s t : State) (c : Fin 4) : Prop
  /-- All registers zero: reset, `play`, `stop`, auto-stop. -/
  | zeroed (chan : t.chan c = Channel.zero)
  /-- Seeded or faulted by `play`. -/
  | seeded (chan : t.chan c = s.readHeader.seedChannel c)
  /-- Not the channel in service, or a step that writes no channel. -/
  | kept (tracks : SameTracks s t) (chan : t.chan c = s.chan c)
  /-- The effects of the channel in service ran. -/
  | effects (tracks : SameTracks s t) (isCur : c = s.cur)
      (chan : t.chan c = s.curChan.runEffects s.params)
  /-- The delay of the channel in service counted. -/
  | counted (tracks : SameTracks s t) (isCur : c = s.cur) (chan : t.chan c = s.curChan.countDown)
  /-- The channel in service took a turn of the interpreter loop. -/
  | turned (tracks : SameTracks s t) (isCur : c = s.cur) (at_ : s.phase = .interpret) {i : Instr}
      {u : State} (instr : InstrOutcome i s u) (chan : t.chan c = u.curChan)

/-- An event begins by zeroing every channel or by writing none. -/
theorem startEvent_chan (s : State) (e : Event) :
    (∀ c, (s.startEvent e).chan c = Channel.zero) ∨
    SameTracks s (s.startEvent e) ∧ ∀ c, (s.startEvent e).chan c = s.chan c := by
  cases e with
  | tick =>
    rw [startEvent_tick]
    rcases beginTick_spec s with h | h <;> rw [h] <;> exact .inr ⟨⟨rfl, rfl⟩, fun _ => rfl⟩
  | play image => exact .inl (State.play_chan s image)
  | stop => exact .inl (State.stopActions_chan s)
  | playPause | mute | unmute => exact .inr ⟨⟨rfl, rfl⟩, fun _ => rfl⟩

theorem StepOutcome.chanOutcome {s t : State} (h : StepOutcome s t) (c : Fin 4) : ChanOutcome s t c := by
  cases h with
  | reset => exact .zeroed (State.resetAction_chan s c)
  | rests => exact .kept ⟨rfl, rfl⟩ rfl
  | begins _ k n hk =>
    rcases startEvent_chan { s with pending := s.pending.eraseIdx k, choices := n } s.pending[k] with
      hzero | ⟨htracks, hkept⟩
    · exact .zeroed (hzero c)
    · exact .kept htracks (hkept c)
  | skips =>
    obtain ⟨p, d, -, h⟩ := nextChannel_eq s
    rw [h]
    exact .kept ⟨rfl, rfl⟩ rfl
  | serves =>
    by_cases hc : c = s.cur
    · exact .effects ⟨rfl, rfl⟩ hc (by rw [State.setPhase_chan, State.setCur_chan, if_pos hc])
    · exact .kept ⟨rfl, rfl⟩ (by rw [State.setPhase_chan, State.setCur_chan, if_neg hc])
  | waits =>
    by_cases hc : c = s.cur
    · exact .counted ⟨rfl, rfl⟩ hc (by rw [State.setPhase_chan, State.setCur_chan, if_pos hc])
    · exact .kept ⟨rfl, rfl⟩ (by rw [State.setPhase_chan, State.setCur_chan, if_neg hc])
  | turns at_ instr =>
    obtain ⟨-, -, hcount, -, -, hsong, -, -, hcur, -⟩ := instr.kept
    by_cases hc : c = s.cur
    · exact .turned ⟨hsong, hcount⟩ hc at_ instr (by rw [State.setPhase_chan, hc, ← hcur]; rfl)
    · exact .kept ⟨hsong, hcount⟩ (by rw [State.setPhase_chan, instr.chan_other hc])
  | publishesFreq =>
    obtain ⟨osc, h⟩ := publishFreqStep_eq s
    rw [h]
    exact .kept ⟨rfl, rfl⟩ rfl
  | publishesVol =>
    obtain ⟨osc, p, d, -, h⟩ := publishVolStep_eq s
    rw [h]
    exact .kept ⟨rfl, rfl⟩ rfl
  | silencesVol =>
    obtain ⟨osc, p, d, -, -, -, h⟩ := silenceVolStep_eq s _
    rw [h]
    exact .kept ⟨rfl, rfl⟩ rfl
  | stops => exact .zeroed (State.stopActions_chan s c)
  | fetches | ends | silencesFreq => exact .kept ⟨rfl, rfl⟩ rfl
  | seeds => exact .seeded (State.playSeedStep_chan s c)

/-- The song changes only when `play` installs one. -/
theorem startEvent_song (s : State) (e : Event) :
    (s.startEvent e).song = s.song ∨ ∃ image, (s.startEvent e).song = Memory.ofBytes image := by
  cases e with
  | tick =>
    rw [startEvent_tick]
    rcases beginTick_spec s with h | h <;> rw [h] <;> exact .inl rfl
  | play image => exact .inr ⟨image, rfl⟩
  | _ => exact .inl rfl

theorem StepOutcome.song {s t : State} (h : StepOutcome s t) :
    t.song = s.song ∨ ∃ image, t.song = Memory.ofBytes image := by
  rcases h.kept with ⟨-, rfl⟩ | ⟨-, k, n, hk, rfl⟩ | hkept
  · exact .inl rfl
  · exact startEvent_song _ _
  · exact .inl hkept.song

/-- Every step keeps the canonical form of the image (20_memory.md R70). -/
theorem StepOutcome.songInv {s t : State} (h : StepOutcome s t) (hsong : SongInv s) : SongInv t := by
  unfold SongInv at *
  rcases h.song with h | ⟨image, h⟩ <;> rw [h]
  · exact hsong
  · exact Memory.wf_ofBytes image

/-- A channel that `play` has seeded is zero but for the cursor, or has only taken a fault (R271, R272). -/
theorem seedChannel_spec (s : State) (n : Fin 4) :
    (∃ target, s.seedChannel n = { Channel.zero with cursor := target }) ∨
    ∃ cause, s.seedChannel n = Channel.zero.raise cause := by
  unfold State.seedChannel
  split
  · exact .inl ⟨_, rfl⟩
  · exact .inr ⟨_, rfl⟩

/-! ### The discipline of one channel -/

/-- At depth 0 with nothing to repeat and no track called there is nothing else to say. -/
theorem channelCallInv_of_top {s : State} {c : Channel} (hsp : c.sp = 0) (hrepeat : c.repeatCounter = 0)
    (htrack : c.trackId = 0) : ChannelCallInv s c := by
  refine ⟨fun _ => ⟨hrepeat, htrack⟩, fun h => absurd hsp h, fun i hi => ?_, fun h => absurd hsp h⟩
  rw [hsp] at hi
  exact absurd hi (Nat.not_lt_zero i)

/-- The discipline speaks of the call registers and of where tracks start only. -/
theorem ChannelCallInv.congr {s t : State} {c x : Channel} (h : ChannelCallInv s c)
    (htracks : SameTracks s t) (hregs : SameCallRegs c x) : ChannelCallInv t x := by
  have hreadable : ∀ id, t.trackReadable id ↔ s.trackReadable id := fun id => by
    rw [State.trackReadable, State.trackReadable, trackStart_congr htracks.1 htracks.2]
  have hframe : ∀ i, x.frame i = c.frame i := fun i => by rw [Channel.frame, hregs.stack, Channel.frame]
  simpa only [ChannelCallInv, hreadable, hframe, hregs.sp, hregs.repeatCounter, hregs.trackId] using h

theorem SameSequencer.callRegs {c x : Channel} (h : SameSequencer c x) : SameCallRegs c x :=
  ⟨h.sp, h.stack, h.repeatCounter, h.trackId⟩

/-- Where some track is readable, track 0 is: its entry stands before the other's in the image. -/
theorem trackReadable_zero {s : State} (hsong : SongInv s) {t : Byte} (h : s.trackReadable t) :
    s.trackReadable 0 := by
  obtain ⟨w, hw⟩ := h
  rcases trackStart_spec s t with ⟨v, -, hrange, hread⟩ | ⟨herror, -⟩ | ⟨herror, -⟩
  · obtain ⟨lo, hi, -, hhi, -⟩ := Memory.read16_eq_some.mp hread
    have hzero : (0 : Byte).toNat = 0 := rfl
    obtain ⟨lo0, hlo0⟩ := Memory.read_isSome_of_le hsong (a := 1 + 2 * (0 : Byte).toNat) (by omega) hhi
    obtain ⟨hi0, hhi0⟩ := Memory.read_isSome_of_le hsong (a := 1 + 2 * (0 : Byte).toNat + 1) (by omega) hhi
    exact ⟨_, trackStart_ok (by omega) hlo0 hhi0⟩
  · rw [herror] at hw; cases hw
  · rw [herror] at hw; cases hw

/-- The current track of a channel is readable wherever a call succeeds: inside a call by the discipline,
outside as track 0. -/
theorem ChannelCallInv.trackId_readable {s : State} {c : Channel} (h : ChannelCallInv s c)
    (hsong : SongInv s) {t : Byte} (ht : s.trackReadable t) : s.trackReadable c.trackId := by
  by_cases hsp : c.sp = 0
  · rw [(h.1 hsp).2]
    exact trackReadable_zero hsong ht
  · exact h.2.1 hsp

@[simp] theorem Channel.pushCall_sp (c : Channel) (r t : Byte) (w : Word) :
    (c.pushCall r t w).sp = c.sp + 1 := rfl

theorem pushCall_frame_top {c : Channel} (hdepth : c.sp ≠ 7) (r t : Byte) (w : Word) :
    (c.pushCall r t w).frame c.sp.toNat =
      { ret := c.cursor, cnt := c.repeatCounter, trk := c.trackId } :=
  Channel.setFrame_frame_same c (by bv_omega) _

theorem pushCall_frame_below (c : Channel) (r t : Byte) (w : Word) {i : Nat} (h : i ≠ c.sp.toNat) :
    (c.pushCall r t w).frame i = c.frame i :=
  Channel.setFrame_frame_other c h _

/-- A call keeps the discipline: the pushed frame names the current track, and at the bottom it holds
zeros. -/
theorem ChannelCallInv.pushCall {s : State} {c : Channel} (h : ChannelCallInv s c) (hsong : SongInv s)
    (hdepth : c.sp ≠ 7) (r : Byte) {t : Byte} (w : Word) (ht : s.trackReadable t) :
    ChannelCallInv s (c.pushCall r t w) := by
  have hne : (c.pushCall r t w).sp ≠ 0 := by rw [Channel.pushCall_sp]; bv_omega
  refine ⟨fun hsp => absurd hsp hne, fun _ => ht, fun i hi => ?_, fun _ => ?_⟩
  · rw [Channel.pushCall_sp_toNat hdepth] at hi
    by_cases htop : i = c.sp.toNat
    · rw [htop, pushCall_frame_top hdepth]
      exact h.trackId_readable hsong ht
    · rw [pushCall_frame_below c r t w htop]
      exact h.2.2.1 i (by omega)
  · by_cases hsp : c.sp = 0
    · have hbottom := pushCall_frame_top hdepth r t w
      rw [hsp] at hbottom
      rw [show (0 : Nat) = (0 : BitVec 3).toNat from rfl, hbottom]
      exact h.1 hsp
    · rw [pushCall_frame_below c r t w (by bv_omega)]
      exact h.2.2.2 hsp

/-- Restarting a called track writes the counter and the cursor only. -/
theorem ChannelCallInv.restart {s : State} {c : Channel} (h : ChannelCallInv s c)
    (hrepeat : c.repeatCounter ≠ 0) (w : Word) : ChannelCallInv s (c.restart w) := by
  have hsp : c.sp ≠ 0 := fun hsp => hrepeat (h.1 hsp).1
  obtain ⟨-, hcurrent, hframes, hbottom⟩ := h
  exact ⟨fun h => absurd h hsp, hcurrent, hframes, hbottom⟩

@[simp] theorem Channel.popCall_sp (c : Channel) : c.popCall.sp = c.sp - 1 := rfl

@[simp] theorem Channel.popCall_frame (c : Channel) (i : Nat) : c.popCall.frame i = c.frame i := rfl

/-- A pop keeps the discipline: the popped frame names a readable track, and the bottom one holds zeros. -/
theorem ChannelCallInv.popCall {s : State} {c : Channel} (h : ChannelCallInv s c) (hsp : c.sp ≠ 0) :
    ChannelCallInv s c.popCall := by
  obtain ⟨-, -, hframes, hbottom⟩ := h
  have hdepth : (c.sp - 1).toNat = c.sp.toNat - 1 := by bv_omega
  have hpos : 0 < c.sp.toNat := by bv_omega
  refine ⟨fun hzero => ?_, fun _ => hframes (c.sp.toNat - 1) (by omega), fun i hi => ?_,
    fun _ => hbottom hsp⟩
  · rw [Channel.popCall_sp] at hzero
    have htop : c.sp.toNat - 1 = 0 := by rw [← hdepth, hzero]; rfl
    simp only [Channel.popCall, htop]
    exact hbottom hsp
  · rw [Channel.popCall_sp, hdepth] at hi
    exact hframes i (by omega)

/-- Every instruction keeps the discipline of the channel in service. -/
theorem InstrOutcome.channelCallInv {i : Instr} {s t : State} (h : InstrOutcome i s t)
    (hsong : SongInv s) (hcall : ChannelCallInv s s.curChan) : ChannelCallInv s t.curChan := by
  have hadvance : ∀ n, ChannelCallInv s (s.curChan.advance n) := fun n =>
    hcall.congr ⟨rfl, rfl⟩ ⟨rfl, rfl, rfl, rfl⟩
  cases h with
  | fault cause =>
    rw [State.raise_curChan]
    exact hcall.congr ⟨rfl, rfl⟩ ⟨rfl, rfl, rfl, rfl⟩
  | plain x fits cursor size kept call =>
    rw [State.setCur_curChan]
    exact hcall.congr ⟨rfl, rfl⟩ call
  | tempo =>
    rw [State.setTempo_curChan, State.setCur_curChan]
    exact hadvance 2
  | call r t w isCall fits size depth start =>
    rw [State.setCur_curChan]
    exact (hadvance _).pushCall hsong depth r w ⟨w, start⟩
  | restart w isRet again start =>
    rw [State.setCur_curChan]
    exact (hadvance 1).restart again w
  | pop isRet last live =>
    rw [State.setCur_curChan]
    exact (hadvance 1).popCall live
  | exhaust =>
    rw [State.setCur_curChan]
    exact (hadvance 1).congr ⟨rfl, rfl⟩ ⟨rfl, rfl, rfl, rfl⟩

/-- Settles O57: channel by channel, by `StepOutcome.chanOutcome`; a turn of the interpreter loop by
`InstrOutcome.channelCallInv`. -/
theorem stepKeepsTheCallStackDiscipline : Obligations.StepKeepsTheCallStackDiscipline := by
  unfold Obligations.StepKeepsTheCallStackDiscipline
  rintro s t ⟨hsong, hcall⟩ hstep
  have houtcome := step_inv hstep
  refine ⟨houtcome.songInv hsong, fun c => ?_⟩
  cases houtcome.chanOutcome c with
  | zeroed chan =>
    rw [chan]
    exact channelCallInv_of_top rfl rfl rfl
  | seeded chan =>
    rw [chan]
    rcases seedChannel_spec s.readHeader c with ⟨_, h⟩ | ⟨_, h⟩ <;> rw [h] <;>
      exact channelCallInv_of_top rfl rfl rfl
  | kept tracks chan =>
    rw [chan]
    exact (hcall c).congr tracks ⟨rfl, rfl, rfl, rfl⟩
  | effects tracks isCur chan =>
    rw [chan]
    exact (hcall s.cur).congr tracks (runEffects_sequencer s.params s.curChan).1.callRegs
  | counted tracks isCur chan =>
    rw [chan]
    exact (hcall s.cur).congr tracks (countDown_sequencer s.curChan).callRegs
  | turned tracks isCur at_ instr chan =>
    rw [chan]
    exact (instr.channelCallInv hsong (hcall s.cur)).congr tracks ⟨rfl, rfl, rfl, rfl⟩

end Sys2Proof.Machine
end

section
/-! The run states (10_state.md R47, 60_exceptions.md R314). The mask's bits first; then one lemma for the
steps that leave the mask alone, and the four events and steps that do not. -/

namespace Sys2Proof.Machine

/-! ### The bits of the mask -/

/-- The bit of channel `n` alone. -/
theorem bit_getLsbD (n : Fin 4) (j : Nat) : (1#8 <<< n.val).getLsbD j = decide (j = n.val) := by
  have hn := n.isLt
  rw [BitVec.getLsbD_shiftLeft, BitVec.getLsbD_one, Bool.eq_iff_iff]
  simp only [Bool.and_eq_true, Bool.not_eq_true', decide_eq_true_eq, decide_eq_false_iff_not]
  omega

theorem maskMute_getLsbD (m : Byte) (n : Fin 4) (j : Nat) :
    (maskMute m n).getLsbD j = (decide (j = n.val) || m.getLsbD j) := by
  rw [maskMute, BitVec.getLsbD_or, bit_getLsbD, Bool.or_comm]

theorem maskUnmute_getLsbD (m : Byte) (n : Fin 4) (j : Nat) :
    (maskUnmute m n).getLsbD j = (decide (j ≠ n.val) && m.getLsbD j) := by
  rw [maskUnmute, BitVec.getLsbD_and, BitVec.getLsbD_not, bit_getLsbD]
  by_cases hj : j < 8
  · simp [hj, Bool.and_comm]
  · simp [BitVec.getLsbD_of_ge m j (by omega)]

theorem activeNibble_getLsbD (s : State) (j : Nat) :
    s.activeNibble.getLsbD j = (decide (j < 4) && s.mask.getLsbD (4 + j)) :=
  BitVec.getLsbD_extractLsb' 4 4 s.mask j

/-- The active bit of a channel is a bit of the active nibble (R47). -/
theorem active_eq (s : State) (c : Fin 4) : s.active c = s.activeNibble.getLsbD c.val := by
  rw [activeNibble_getLsbD, decide_eq_true c.isLt, Bool.true_and]
  rfl

/-- Two masks with the same upper bits have the same active nibble. -/
theorem activeNibble_congr {s t : State} (h : ∀ j < 4, t.mask.getLsbD (4 + j) = s.mask.getLsbD (4 + j)) :
    t.activeNibble = s.activeNibble := by
  refine BitVec.eq_of_getLsbD_eq fun j hj => ?_
  rw [activeNibble_getLsbD, activeNibble_getLsbD, h j hj]

theorem activeNibble_mute (s : State) (n : Fin 4) : (s.mute n).activeNibble = s.activeNibble := by
  refine activeNibble_congr fun j _ => ?_
  rw [State.mute, maskMute_getLsbD, decide_eq_false (by omega), Bool.false_or]

theorem activeNibble_unmute (s : State) (n : Fin 4) : (s.unmute n).activeNibble = s.activeNibble := by
  refine activeNibble_congr fun j _ => ?_
  rw [State.unmute, maskUnmute_getLsbD, decide_eq_true (by omega), Bool.true_and]

theorem activeNibble_toNat (s : State) : s.activeNibble.toNat = s.mask.toNat / 16 := by
  have hlt := s.mask.isLt
  simp [State.activeNibble, BitVec.extractLsb'_toNat, Nat.shiftRight_eq_div_pow]
  omega

/-- `StopActions` clears the active bits (47_host_commands.md R274). -/
theorem activeNibble_stopActions (s : State) : s.stopActions.activeNibble = 0 := by
  refine BitVec.eq_of_getLsbD_eq fun j hj => ?_
  rw [activeNibble_getLsbD, State.stopActions, maskNoneActive, BitVec.getLsbD_and]
  interval_cases j <;> simp

/-- `play` sets the active bits (R271). -/
theorem activeNibble_playSeedStep (s : State) : s.playSeedStep.activeNibble = 0xF := by
  refine BitVec.eq_of_getLsbD_eq fun j hj => ?_
  rw [activeNibble_getLsbD, State.playSeedStep_mask, maskAllActive, BitVec.getLsbD_or]
  interval_cases j <;> simp

theorem activeNibble_resetAction (s : State) : s.resetAction.activeNibble = 0 :=
  show State.reset.activeNibble = 0 by decide

/-! ### The run states -/

/-- A channel in service is active, so the block is not stopped. -/
theorem activeNibble_ne_zero {s : State} {c : Fin 4} (h : s.active c = true) : s.activeNibble ≠ 0 := by
  rintro hzero
  rw [active_eq, hzero] at h
  simp at h

/-- A step that leaves the active bits: zero channels stay zero while no channel is active, and the place in
the event stays admissible. -/
theorem RunStateInv.of_activeNibble {s t : State} (h : RunStateInv s)
    (hnibble : t.activeNibble = s.activeNibble)
    (hzero : s.activeNibble = 0 → ∀ c, t.chan c = s.chan c ∨ t.chan c = Channel.zero)
    (hservice : t.phase.inService = true → s.activeNibble = 0xF) (hidle : t.phase = .idle → t.cur = 0) :
    RunStateInv t := by
  obtain ⟨hsides, hstopped, -, -⟩ := h
  refine ⟨by rwa [hnibble], fun hnone c => ?_, by rwa [hnibble], hidle⟩
  rw [hnibble] at hnone
  exact (hzero hnone c).elim (fun hkept => hkept.trans (hstopped hnone c)) id

/-- A step inside the service of a channel: the block is not stopped. -/
theorem RunStateInv.of_inService {s t : State} (h : RunStateInv s) (hservice : s.phase.inService = true)
    (hmask : t.mask = s.mask) (hphase : t.phase ≠ .idle) : RunStateInv t := by
  have hactive : s.activeNibble = 0xF := h.2.2.1 hservice
  refine h.of_activeNibble (by rw [State.activeNibble, hmask, State.activeNibble]) (fun hnone => ?_)
    (fun _ => hactive) (fun hidle => absurd hidle hphase)
  rw [hactive] at hnone
  exact absurd hnone (by decide)

/-- The stopped block, on its way through the Oscillator Output. -/
theorem runStateInv_stopActions (s : State) : RunStateInv s.stopActions :=
  ⟨.inl (activeNibble_stopActions s), fun _ => State.stopActions_chan s, nofun, nofun⟩

/-- Every event begins in a run state. -/
theorem RunStateInv.startEvent {s : State} (h : RunStateInv s) (hphase : s.phase = .idle) (e : Event) :
    RunStateInv (s.startEvent e) := by
  have hcur : s.cur = 0 := h.2.2.2 hphase
  have hidle : s.phase.inService = false := by rw [hphase]; rfl
  cases e with
  | tick =>
    rw [startEvent_tick]
    rcases beginTick_spec s with hstep | hstep <;> rw [hstep]
    · exact h.of_activeNibble rfl (fun _ _ => .inl rfl) nofun nofun
    · exact h
  | play image => exact h.of_activeNibble rfl (fun _ c => .inr (State.play_chan s image c)) nofun nofun
  | stop => exact runStateInv_stopActions s
  | playPause =>
    exact h.of_activeNibble rfl (fun _ _ => .inl rfl) (fun hin => by cases hidle.symm.trans hin)
      fun _ => hcur
  | mute n =>
    exact h.of_activeNibble (activeNibble_mute s n) (fun _ _ => .inl rfl)
      (fun hin => by cases hidle.symm.trans hin) fun _ => hcur
  | unmute n =>
    exact h.of_activeNibble (activeNibble_unmute s n) (fun _ _ => .inl rfl)
      (fun hin => by cases hidle.symm.trans hin) fun _ => hcur

/-- Settles O58: by the outcomes of a step; those that serve a channel by `RunStateInv.of_inService`, a
gate that lets a channel through by its active bit. -/
theorem stepKeepsTheRunStates : Obligations.StepKeepsTheRunStates := by
  unfold Obligations.StepKeepsTheRunStates
  intro s t h hstep
  cases step_inv hstep with
  | reset => exact ⟨.inl (activeNibble_resetAction s), fun _ => State.resetAction_chan s, nofun, fun _ => rfl⟩
  | rests => exact h
  | begins at_ k n hk =>
    exact RunStateInv.startEvent (s := { s with pending := s.pending.eraseIdx k, choices := n }) h at_ _
  | skips =>
    obtain ⟨p, d, hp, hnext⟩ := nextChannel_eq s
    rw [hnext]
    refine h.of_activeNibble rfl (fun _ _ => .inl rfl) ?_ ?_ <;> rcases hp with rfl | rfl <;> exact nofun
  | serves _ active =>
    have hnibble := h.1.resolve_left (activeNibble_ne_zero active)
    refine h.of_activeNibble rfl (fun hnone => ?_) (fun _ => hnibble) nofun
    exact absurd hnone (activeNibble_ne_zero active)
  | waits at_ =>
    exact h.of_inService (by rcases at_ with at_ | ⟨at_, -⟩ <;> rw [at_] <;> rfl) rfl nofun
  | fetches at_ =>
    exact h.of_inService (by rcases at_ with at_ | ⟨at_, -⟩ <;> rw [at_] <;> rfl) rfl nofun
  | turns at_ instr => exact h.of_inService (by rw [at_]; rfl) instr.kept.1 nofun
  | publishesFreq at_ =>
    obtain ⟨osc, hnext⟩ := publishFreqStep_eq s
    rw [hnext]
    exact h.of_inService (by rw [at_]; rfl) rfl nofun
  | publishesVol at_ =>
    obtain ⟨osc, p, d, hp, hnext⟩ := publishVolStep_eq s
    rw [hnext]
    exact h.of_inService (by rw [at_]; rfl) rfl (by rcases hp with rfl | rfl <;> exact nofun)
  | stops => exact runStateInv_stopActions s
  | ends => exact h.of_activeNibble rfl (fun _ _ => .inl rfl) nofun fun _ => rfl
  | silencesFreq => exact h.of_activeNibble rfl (fun _ _ => .inl rfl) nofun nofun
  | silencesVol =>
    obtain ⟨osc, p, d, hidle, hservice, -, hnext⟩ := silenceVolStep_eq s _
    rw [hnext]
    exact h.of_activeNibble rfl (fun _ _ => .inl rfl) (fun hin => by cases hservice.symm.trans hin) hidle
  | seeds =>
    have hnibble := activeNibble_playSeedStep s
    refine ⟨.inr hnibble, fun hnone => ?_, fun _ => hnibble, fun _ => rfl⟩
    rw [hnibble] at hnone
    exact absurd hnone (by decide)

end Sys2Proof.Machine
end

section
/-! The ranges of the effect counters (10_state.md R33, R36, R42, R44), processor by processor. -/

namespace Sys2Proof.Machine

/-- The counters of one channel hold the values they take in operation, and its arpeggio is in one of its
three phases. -/
def CountersInRange (c : Channel) : Prop :=
  c.slideCount.toNat ≤ 63 ∧ c.glisCount.toNat ≤ 127 ∧ c.retrigCount.toNat ≤ 3 ∧ c.arpPhase ≠ 3

theorem countersInRange_zero : CountersInRange Channel.zero := by unfold CountersInRange; decide

/-- The ranges speak of these four registers only. -/
theorem CountersInRange.congr {c x : Channel} (h : CountersInRange c) (hslide : x.slideCount = c.slideCount)
    (hglis : x.glisCount = c.glisCount) (hretrig : x.retrigCount = c.retrigCount)
    (harp : x.arpPhase = c.arpPhase ∨ x.arpPhase = 0) : CountersInRange x := by
  obtain ⟨h1, h2, h3, h4⟩ := h
  refine ⟨by rwa [hslide], by rwa [hglis], by rwa [hretrig], ?_⟩
  rcases harp with harp | harp <;> rw [harp]
  · exact h4
  · decide

theorem slideCount_le {c : Channel} (h : c.slideCount.toNat ≤ 63) : c.slide.slideCount.toNat ≤ 63 := by
  have hcount : (everyN c.slideCount c.slidePeriod).2.toNat ≤ 63 :=
    everyN_le _ (by rw [slidePeriod_eq]; omega)
  unfold Channel.slide Channel.move
  split
  · exact h
  · dsimp only
    split
    · split <;> exact hcount
    · exact hcount

theorem glisCount_le {c : Channel} (p : Params) (h : c.glisCount.toNat ≤ 127) :
    (c.glissando p).glisCount.toNat ≤ 127 := by
  have hcount : (everyN c.glisCount c.glisPeriod).2.toNat ≤ 127 :=
    everyN_le _ (by rw [glisPeriod_eq]; omega)
  unfold Channel.glissando
  split
  · exact h
  · dsimp only
    split <;> exact hcount

theorem retrigCount_le {c : Channel} (p : Params) (h : c.retrigCount.toNat ≤ 3) :
    (c.retrigger p).retrigCount.toNat ≤ 3 := by
  have hcount : (everyN c.retrigCount c.retrigPeriod).2.toNat ≤ 3 :=
    everyN_le _ (by rw [retrigPeriod_eq]; omega)
  unfold Channel.retrigger
  split
  · exact h
  · dsimp only
    split <;> exact hcount

/-- The arpeggio never goes to phase 3 (R36). -/
theorem nextArpPhase_ne_three (p : BitVec 2) (skipThird cut : Bool) : nextArpPhase p skipThird cut ≠ 3 := by
  unfold nextArpPhase
  split_ifs <;> decide

theorem arpPhase_ne_three {c : Channel} (p : Params) (h : c.arpPhase ≠ 3) : (c.arpCut p).arpPhase ≠ 3 := by
  unfold Channel.arpCut
  split
  · exact h
  · split
    · exact h
    · exact nextArpPhase_ne_three _ _ _

section Processors

variable {c : Channel} (h : CountersInRange c)
include h

theorem CountersInRange.slide : CountersInRange c.slide := by
  obtain ⟨h1, h2, h3, h4⟩ := h
  refine ⟨slideCount_le h1, ?_⟩
  rw [slide_writes]
  exact ⟨h2, h3, h4⟩

theorem CountersInRange.arpCut (p : Params) : CountersInRange (c.arpCut p) := by
  obtain ⟨h1, h2, h3, h4⟩ := h
  have hphase := arpPhase_ne_three p h4
  rw [arpCut_writes]
  exact ⟨h1, h2, h3, hphase⟩

theorem CountersInRange.trevi : CountersInRange c.trevi := by
  rw [trevi_writes]
  exact h

theorem CountersInRange.glissando (p : Params) : CountersInRange (c.glissando p) := by
  obtain ⟨h1, h2, h3, h4⟩ := h
  have hcount := glisCount_le p h2
  rw [glissando_writes]
  exact ⟨h1, hcount, h3, h4⟩

theorem CountersInRange.retrigger (p : Params) : CountersInRange (c.retrigger p) := by
  obtain ⟨h1, h2, h3, h4⟩ := h
  have hcount := retrigCount_le p h3
  rw [retrigger_writes]
  exact ⟨h1, h2, hcount, h4⟩

theorem CountersInRange.runEffects (p : Params) : CountersInRange (c.runEffects p) :=
  ((((h.slide).arpCut p).trevi).glissando p).retrigger p

theorem CountersInRange.countDown : CountersInRange c.countDown := by
  unfold Channel.countDown
  split <;> exact h

end Processors

/-- No instruction writes a counter; only a NOTE writes the arpeggio's phase, and that to 0 (41_note.md
R155, 42_setup_fx.md R183). -/
theorem InstrOutcome.countersInRange {i : Instr} {s t : State} (h : InstrOutcome i s t)
    (hcount : CountersInRange s.curChan) : CountersInRange t.curChan := by
  cases h with
  | fault cause => rw [State.raise_curChan]; exact hcount
  | plain x fits cursor size kept =>
    rw [State.setCur_curChan]
    exact hcount.congr kept.slideCount kept.glisCount kept.retrigCount kept.arpPhase
  | tempo => rw [State.setTempo_curChan, State.setCur_curChan]; exact hcount
  | _ => rw [State.setCur_curChan]; exact hcount

/-- Settles O55: channel by channel, by `StepOutcome.chanOutcome`. -/
theorem stepKeepsCountersInRange : Obligations.StepKeepsCountersInRange := by
  unfold Obligations.StepKeepsCountersInRange
  intro s t h hstep c
  have hcount : ∀ d, CountersInRange (s.chan d) := h
  show CountersInRange (t.chan c)
  cases (step_inv hstep).chanOutcome c with
  | zeroed chan => rw [chan]; exact countersInRange_zero
  | seeded chan =>
    rw [chan]
    rcases seedChannel_spec s.readHeader c with ⟨_, h⟩ | ⟨_, h⟩ <;> rw [h] <;> exact countersInRange_zero
  | kept _ chan => rw [chan]; exact hcount c
  | effects _ _ chan => rw [chan]; exact (hcount s.cur).runEffects s.params
  | counted _ _ chan => rw [chan]; exact (hcount s.cur).countDown
  | turned _ _ _ instr chan => rw [chan]; exact instr.countersInRange (hcount s.cur)

end Sys2Proof.Machine
end

section
/-! Faulted channels (60_exceptions.md R292, R293): each stands at the instruction that faulted, the block
never works on it, and a tick leaves it and its slot alone. -/

namespace Sys2Proof.Machine

/-- A faulted channel stands at the instruction that faulted. -/
def StandsAtFault (c : Channel) : Prop := c.fault ≠ 0 → c.cursor = c.faultCursor

theorem standsAtFault_of_sound {c : Channel} (h : c.fault = 0) : StandsAtFault c :=
  fun hfault => absurd h hfault

theorem StandsAtFault.congr {c x : Channel} (h : StandsAtFault c) (hregs : SameSequencer c x) :
    StandsAtFault x := fun hfault => by
  rw [hregs.cursor, hregs.faultCursor]
  exact h (by rwa [← hregs.fault])

theorem standsAtFault_raise (c : Channel) (cause : FaultCause) : StandsAtFault (c.raise cause) := fun _ => rfl

/-- An instruction of a sound channel leaves it sound or standing at its fault. -/
theorem InstrOutcome.standsAtFault {i : Instr} {s t : State} (h : InstrOutcome i s t)
    (hsound : s.curChan.fault = 0) : StandsAtFault t.curChan := by
  rcases h.fault_or_kept with ⟨cause, rfl⟩ | hkept
  · rw [State.raise_curChan]
    exact standsAtFault_raise _ cause
  · exact standsAtFault_of_sound (hkept.trans hsound)

/-- The channel about to wait or fetch is sound: from its gate, or from the loop's test. -/
theorem FaultInv.sound_of_goesOn {s : State} (h : FaultInv s)
    (at_ : s.phase = .sequence ∨ s.phase = .loopTest ∧ s.curChan.fault = 0) : s.curChan.fault = 0 := by
  rcases at_ with at_ | ⟨-, hsound⟩
  · exact h.2 (by rw [at_]; rfl)
  · exact hsound

/-- No event begins in a phase that works on a channel. -/
theorem startEvent_onLiveChannel {s : State} (hphase : s.phase = .idle) (e : Event) :
    (s.startEvent e).phase.onLiveChannel = false := by
  have hidle : s.phase.onLiveChannel = false := by rw [hphase]; rfl
  cases e with
  | tick =>
    rw [startEvent_tick]
    rcases beginTick_spec s with h | h <;> rw [h]
    · rfl
    · exact hidle
  | play | stop => rfl
  | playPause | mute | unmute => exact hidle

/-- A step that ends in a phase that works on a channel leaves that channel sound. -/
theorem StepOutcome.sound_of_onLiveChannel {s t : State} (h : StepOutcome s t) (hinv : FaultInv s)
    (hlive : t.phase.onLiveChannel = true) : t.curChan.fault = 0 := by
  cases h with
  | reset => cases hlive
  | rests => exact hinv.2 hlive
  | begins at_ k n hk =>
    cases (startEvent_onLiveChannel (s := { s with pending := s.pending.eraseIdx k, choices := n }) at_
      s.pending[k]).symm.trans hlive
  | skips =>
    obtain ⟨p, c, hp, h⟩ := nextChannel_eq s
    rw [h] at hlive
    rcases hp with rfl | rfl <;> cases hlive
  | serves at_ active sound =>
    rw [State.setPhase_curChan, State.setCur_curChan, (runEffects_sequencer _ _).1.fault, sound]
  | waits at_ =>
    rw [State.setPhase_curChan, State.setCur_curChan, (countDown_sequencer _).fault,
      hinv.sound_of_goesOn at_]
  | fetches at_ => rw [State.setPhase_curChan, hinv.sound_of_goesOn at_]
  | turns => cases hlive
  | publishesFreq at_ =>
    obtain ⟨osc, h⟩ := publishFreqStep_eq s
    rw [h]
    exact hinv.2 (by rw [at_]; rfl)
  | publishesVol =>
    obtain ⟨osc, p, c, hp, h⟩ := publishVolStep_eq s
    rw [h] at hlive
    rcases hp with rfl | rfl <;> cases hlive
  | silencesVol =>
    obtain ⟨osc, p, c, -, -, hp, h⟩ := silenceVolStep_eq s _
    rw [h] at hlive
    cases hp.symm.trans hlive
  | stops | ends | silencesFreq | seeds => cases hlive

/-- Settles O56: where a faulted channel stands, by `StepOutcome.chanOutcome`; that the next one worked on is
sound, by `StepOutcome.sound_of_onLiveChannel`. -/
theorem stepKeepsFaultedChannelsInPlace : Obligations.StepKeepsFaultedChannelsInPlace := by
  unfold Obligations.StepKeepsFaultedChannelsInPlace
  intro s t h hstep
  have houtcome := step_inv hstep
  have hstands : ∀ c, StandsAtFault (s.chan c) := h.1
  refine ⟨fun c => ?_, houtcome.sound_of_onLiveChannel h⟩
  show StandsAtFault (t.chan c)
  cases houtcome.chanOutcome c with
  | zeroed chan => rw [chan]; exact standsAtFault_of_sound rfl
  | seeded chan =>
    rw [chan]
    rcases seedChannel_spec s.readHeader c with ⟨_, h⟩ | ⟨cause, h⟩ <;> rw [h]
    · exact standsAtFault_of_sound rfl
    · exact standsAtFault_raise _ cause
  | kept _ chan => rw [chan]; exact hstands c
  | effects _ _ chan => rw [chan]; exact (hstands s.cur).congr (runEffects_sequencer _ _).1
  | counted _ _ chan => rw [chan]; exact (hstands s.cur).congr (countDown_sequencer _)
  | turned _ _ at_ instr chan => rw [chan]; exact instr.standsAtFault (h.2 (by rw [at_]; rfl))

/-! ### A tick leaves a faulted channel alone -/

/-- A step that writes no register set and no slot keeps every channel and slot. -/
theorem frozen_of_eq {s t : State} {p : Phase} {d : Fin 4} (h : t = { s with phase := p, cur := d })
    (c : Fin 4) : t.chan c = s.chan c ∧ t.slot c = s.slot c := by
  rw [h]
  exact ⟨rfl, rfl⟩

/-- Settles O44: in each phase of a channel's service the step writes at most the registers and the slot of
the channel in service, and where it writes any, that channel is sound. -/
theorem faultedChannelIsFrozen : Obligations.FaultedChannelIsFrozen := by
  unfold Obligations.FaultedChannelIsFrozen
  intro s t c hinv hreset hfault hphase hstep
  have hother : s.curChan.fault = 0 → c ≠ s.cur := fun hsound heq => hfault (by rw [heq]; exact hsound)
  have hservice : ∀ p, s.phase = p → p ≠ .service → p.inService = false → False := fun p hp hne hout => by
    rcases hphase with h | h <;> rw [hp] at h
    · exact hne h
    · cases hout.symm.trans h
  cases step_inv hstep with
  | reset asserted => cases hreset.symm.trans asserted
  | skips =>
    obtain ⟨p, d, -, h⟩ := nextChannel_eq s
    exact frozen_of_eq h c
  | serves at_ active sound => exact ⟨State.setCur_chan_other s _ (hother sound), rfl⟩
  | waits at_ => exact ⟨State.setCur_chan_other s _ (hother (hinv.sound_of_goesOn at_)), rfl⟩
  | fetches => exact ⟨rfl, rfl⟩
  | turns at_ instr =>
    obtain ⟨-, -, -, -, hosc, -⟩ := instr.kept
    refine ⟨instr.chan_other (hother (hinv.2 (by rw [at_]; rfl))), ?_⟩
    rw [State.setPhase_slot, State.slot, hosc, State.slot]
  | publishesFreq at_ =>
    have hne := hother (hinv.2 (by rw [at_]; rfl))
    rcases publishFreqStep_spec s with h | ⟨-, -, h⟩ <;> rw [h]
    · exact ⟨rfl, rfl⟩
    · refine ⟨rfl, ?_⟩
      rw [State.setPhase_slot, State.setOscFreq_slot, if_neg hne]
  | publishesVol at_ =>
    have hne := hother (hinv.2 (by rw [at_]; rfl))
    rcases publishVolStep_spec s with h | h <;> rw [h, nextChannel_chan, nextChannel_slot]
    · exact ⟨rfl, rfl⟩
    · refine ⟨rfl, ?_⟩
      rw [State.setOscVol_slot, if_neg hne]
  | rests at_ => exact (hservice _ at_ nofun rfl).elim
  | begins at_ => exact (hservice _ at_ nofun rfl).elim
  | stops at_ => exact (hservice _ at_ nofun rfl).elim
  | ends at_ => exact (hservice _ at_ nofun rfl).elim
  | silencesFreq at_ => exact (hservice _ at_ nofun rfl).elim
  | silencesVol at_ => exact (hservice _ at_ nofun rfl).elim
  | seeds at_ => exact (hservice _ at_ nofun rfl).elim

end Sys2Proof.Machine
end

section
/-! The globals (10_state.md R49, R51, R52), what waits outside an event (70_reset_and_hazards.md R340), and
the state after reset. -/

namespace Sys2Proof.Machine

/-- `TrackBase` after the header is read: the largest track count does not overflow it (R51). -/
theorem readHeader_trackBase (s : State) :
    s.readHeader.trackBase.toNat = 5 + 2 * s.readHeader.trackCount.toNat := by
  have hlt := s.readHeader.trackCount.isLt
  have hbase : s.readHeader.trackBase = BitVec.ofNat 10 (1 + 2 * s.readHeader.trackCount.toNat + 4) := rfl
  rw [hbase, BitVec.toNat_ofNat]
  omega

/-- The default tempo of admitted parameters is not 0 (R49). -/
theorem defaultTempo_ne_zero {p : Params} (h : p.wf = true) : p.defaultTempo ≠ 0 := by
  simp only [Params.wf, Bool.and_eq_true, bne_iff_ne] at h
  exact h.2

/-- An instruction leaves `tempo`, or SET_TEMPO writes it with a value that is not 0. -/
theorem InstrOutcome.tempo_eq_or_ne_zero {i : Instr} {s t : State} (h : InstrOutcome i s t) :
    t.tempo = s.tempo ∨ t.tempo ≠ 0 := by
  cases h with
  | tempo v isTempo ne => exact .inr ne
  | _ => exact .inl rfl

/-- A step that leaves the globals and the frequency of slot 3 keeps their ranges. -/
theorem GlobalsInv.congr {s t : State} (h : GlobalsInv s) (hsong : SongInv t) (hparams : t.params = s.params)
    (htempo : t.tempo = s.tempo ∨ t.tempo ≠ 0) (hbase : t.trackBase = s.trackBase)
    (hcount : t.trackCount = s.trackCount) (hslot : (t.slot 3).freq = (s.slot 3).freq ∨ (t.slot 3).freq = 0) :
    GlobalsInv t := by
  obtain ⟨-, hwf, hne, hbases, hfreq⟩ := h
  refine ⟨hsong, by rwa [hparams], ?_, by rwa [hbase, hcount], ?_⟩
  · rcases htempo with h | h
    · rwa [h]
    · exact h
  · exact hslot.elim (fun h => h.trans hfreq) id

/-- Settles O59: by the outcomes of a step; only reset, the seeding of `play`, SET_TEMPO and the writes of
the Oscillator Output touch what the invariant speaks of. -/
theorem stepKeepsTheGlobalsInRange : Obligations.StepKeepsTheGlobalsInRange := by
  unfold Obligations.StepKeepsTheGlobalsInRange
  intro s t h hstep
  have houtcome := step_inv hstep
  have hsong := houtcome.songInv h.1
  obtain ⟨-, hwf, -, -, hfreq⟩ := id h
  cases houtcome with
  | reset => exact ⟨hsong, hwf, defaultTempo_ne_zero hwf, .inl ⟨rfl, rfl⟩, rfl⟩
  | begins at_ k n hk =>
    obtain ⟨htempo, hcount, hbase, hosc, -⟩ :=
      startEvent_kept { s with pending := s.pending.eraseIdx k, choices := n } s.pending[k]
    refine h.congr hsong (startEvent_params _ _) (.inl htempo) hbase hcount (.inl ?_)
    rw [State.slot, hosc, State.slot]
  | skips =>
    obtain ⟨p, d, -, hnext⟩ := nextChannel_eq s
    rw [hnext] at hsong ⊢
    exact h.congr hsong rfl (.inl rfl) rfl rfl (.inl rfl)
  | turns _ instr =>
    obtain ⟨-, -, hcount, hbase, hosc, -, hparams, -⟩ := instr.kept
    refine h.congr hsong hparams instr.tempo_eq_or_ne_zero hbase hcount (.inl ?_)
    rw [State.setPhase_slot, State.slot, hosc, State.slot]
  | publishesFreq =>
    rcases publishFreqStep_spec s with hnext | ⟨hcur, -, hnext⟩ <;> rw [hnext] at hsong ⊢
    · exact h.congr hsong rfl (.inl rfl) rfl rfl (.inl rfl)
    · refine h.congr hsong rfl (.inl rfl) rfl rfl (.inl ?_)
      rw [State.setPhase_slot, State.setOscFreq_slot, if_neg (Ne.symm hcur)]
  | publishesVol =>
    obtain ⟨osc, p, d, -, hnext⟩ := publishVolStep_eq s
    have hslot : (s.publishVolStep.slot 3).freq = (s.slot 3).freq := by
      rcases publishVolStep_spec s with hnext | hnext <;> rw [hnext, nextChannel_slot]
      rw [State.setOscVol_slot]
      split
      · next hcur => rw [← hcur]
      · rfl
    rw [hnext] at hsong hslot ⊢
    exact h.congr hsong rfl (.inl rfl) rfl rfl (.inl hslot)
  | @silencesFreq k =>
    refine h.congr hsong rfl (.inl rfl) rfl rfl ?_
    rw [State.silenceFreqStep, State.setPhase_slot, State.setOscFreq_slot]
    split
    · exact .inr rfl
    · exact .inl rfl
  | @silencesVol k =>
    obtain ⟨osc, p, d, -, -, -, hnext⟩ := silenceVolStep_eq s k
    have hslot : ((s.silenceVolStep k).slot 3).freq = (s.slot 3).freq := by
      have hset : (s.silenceVolStep k).slot 3 = (s.setOscVol s.cur 0).slot 3 := by
        unfold State.silenceVolStep
        split <;> rfl
      rw [hset, State.setOscVol_slot]
      split
      · next hcur => rw [← hcur]
      · rfl
    rw [hnext] at hsong hslot ⊢
    exact h.congr hsong rfl (.inl rfl) rfl rfl (.inl hslot)
  | seeds =>
    exact ⟨hsong, hwf, defaultTempo_ne_zero hwf, .inr (readHeader_trackBase s), hfreq⟩
  | rests | serves | waits | fetches | stops | ends => exact h.congr hsong rfl (.inl rfl) rfl rfl (.inl rfl)

/-- Settles O60: zero channels, a zero mask and no image have every invariant; the default tempo is 25. -/
theorem resetStateHasEveryInvariant : Obligations.ResetStateHasEveryInvariant := by
  unfold Obligations.ResetStateHasEveryInvariant
  refine ⟨fun c => ?counters, ⟨fun c => ?faults, nofun⟩, ⟨rfl, fun c => ?calls⟩, ?runState, ?globals⟩
  case counters =>
    rw [State.reset_chan]
    exact countersInRange_zero
  case faults =>
    rw [State.reset_chan]
    exact standsAtFault_of_sound rfl
  case calls =>
    rw [State.reset_chan]
    exact channelCallInv_of_top rfl rfl rfl
  case runState => exact ⟨.inl isStopped_reset.1, fun _ => State.reset_chan, nofun, fun _ => rfl⟩
  case globals => exact ⟨rfl, by decide, by decide, .inl ⟨rfl, rfl⟩, by decide⟩

/-- Settles O45: a step is the beginning of an event, or leaves what is kept inside one
(`StepOutcome.kept`). -/
theorem pendingEventsWait : Obligations.PendingEventsWait := by
  unfold Obligations.PendingEventsWait
  intro s t hreset hstep
  rcases (step_inv hstep).kept with ⟨asserted, -⟩ | ⟨hidle, k, n, hk, rfl⟩ | hkept
  · cases hreset.symm.trans asserted
  · exact ⟨startEvent_params _ _, fun hbusy => absurd hidle hbusy⟩
  · exact ⟨hkept.params, fun _ => ⟨hkept.pending, hkept.song⟩⟩

end Sys2Proof.Machine
end

section
/-! What the effect processors do over many ticks and what they leave alone (46_effect_processors.md R240 to
R263). -/

namespace Sys2Proof.Machine

/-! ### `EveryN` (R241) -/

/-- From a counter of 0 the counter is the number of ticks, until the period is reached. -/
theorem everyN_iterate {n : Nat} (hn : n ≤ 127) : ∀ j, j < n →
    (fun k : Byte => (everyN k n).2)^[j] 0 = BitVec.ofNat 8 j
  | 0, _ => rfl
  | j + 1, hj => by
    have hcount : (BitVec.ofNat 8 j).toNat + 1 < n := by rw [BitVec.toNat_ofNat]; omega
    rw [Function.iterate_succ_apply', everyN_iterate hn j (by omega), everyN_counts hcount]
    exact (BitVec.ofNat_add j 1).symm

/-- Settles O30: the counter by `everyN_iterate`; it fires exactly where the next tick is the N-th. -/
theorem everyNFiresOnTheNthTick : Obligations.EveryNFiresOnTheNthTick := by
  unfold Obligations.EveryNFiresOnTheNthTick
  refine ⟨fun n j hn hj => ⟨everyN_iterate hn j hj, ?_⟩, fun k n => everyN_fires, fun k => ?_⟩
  · have hcount : (BitVec.ofNat 8 j).toNat = j := by rw [BitVec.toNat_ofNat]; omega
    by_cases hlast : j + 1 = n
    · rw [everyN_fires (by omega)]
      exact iff_of_true rfl hlast
    · rw [everyN_counts (by omega)]
      exact iff_of_false nofun hlast
  · rw [everyN_fires (Nat.zero_le _), everyN_fires (by omega)]

/-! ### The unbounded swing (R253, R254) -/

/-- The channel with the target of its tremolo or vibrato `d` further on, wrapped at the register's width, at
a place of the cycle. -/
def Channel.swung (c : Channel) (d : Int) (tick : BitVec 5) (phase : Bool) : Channel :=
  { c with
    volume := c.volume + BitVec.ofInt 8 (if c.treviOnFreq then 0 else d)
    frequency := c.frequency + BitVec.ofInt 16 (if c.treviOnFreq then d else 0)
    treviTick := tick
    treviPhase := phase }

/-- The signed distance of one tick in a phase: down in phase 0, up in phase 1. -/
def Channel.swingOf (c : Channel) (phase : Bool) : Int :=
  if phase then c.treviDepth.toNat else -c.treviDepth.toNat

theorem swung_self (c : Channel) : c.swung 0 c.treviTick c.treviPhase = c := by
  simp [Channel.swung]

/-- Two distances add up in the register: it wraps (R242). -/
theorem add_ofInt_ite {w : Nat} (x : BitVec w) (b : Bool) (d e : Int) :
    x + BitVec.ofInt w (if b then d else 0) + BitVec.ofInt w (if b then e else 0) =
      x + BitVec.ofInt w (if b then d + e else 0) := by
  cases b <;> simp [BitVec.ofInt_add, BitVec.add_assoc]

theorem swung_add (c : Channel) (d e : Int) (tick tick' : BitVec 5) (phase phase' : Bool) :
    (c.swung d tick phase).swung e tick' phase' = c.swung (d + e) tick' phase' := by
  have hflip : ∀ d : Int, (if c.treviOnFreq then 0 else d) = if !c.treviOnFreq then d else 0 := fun d => by
    cases c.treviOnFreq <;> rfl
  have honFreq : (c.swung d tick phase).treviOnFreq = c.treviOnFreq := rfl
  rw [Channel.swung, honFreq]
  simp only [Channel.swung, hflip, add_ofInt_ite]

/-- Where the unbounded bit is set, one move of the target is a swing by the distance of its phase. -/
theorem treviMoved_unbounded {c : Channel} (h : c.treviConfig.getLsbD 7 = true) :
    c.treviMoved = c.swung (c.swingOf c.treviPhase) c.treviTick c.treviPhase := by
  have hbit : c.treviUnbounded = true := h
  cases htarget : c.treviConfig.getLsbD 6 with
  | false =>
    have honFreq : c.treviOnFreq = false := htarget
    rw [treviMoved_tremolo htarget, (boundVol_spec _ _).2 hbit, ofInt_toNat_add]
    simp [Channel.swung, honFreq, Channel.swingOf, Channel.treviSwing]
  | true =>
    have honFreq : c.treviOnFreq = true := htarget
    rw [treviMoved_vibrato htarget, (boundFreq_spec _ _).2 hbit, ofInt_toNat_add]
    simp [Channel.swung, honFreq, Channel.swingOf, Channel.treviSwing]

section Swing

variable {c : Channel} (hdepth : c.treviDepth ≠ 0) (hunbounded : c.treviConfig.getLsbD 7 = true)
include hdepth hunbounded

/-- One tick of an unbounded swing. -/
theorem swung_trevi (d : Int) (tick : BitVec 5) (phase : Bool) :
    (c.swung d tick phase).trevi =
      if tick.toNat < c.treviConfig.toNat % 32 then c.swung (d + c.swingOf phase) (tick + 1) phase
      else c.swung (d + c.swingOf phase) 0 (!phase) := by
  have hmoved : (c.swung d tick phase).treviMoved = c.swung (d + c.swingOf phase) tick phase :=
    (treviMoved_unbounded (c := c.swung d tick phase) hunbounded).trans (swung_add c d _ _ _ _ _)
  rw [trevi_eq (c := c.swung d tick phase) hdepth, hmoved]
  by_cases htick : tick.toNat < c.treviConfig.toNat % 32
  · simp only [Channel.swung, htick, if_true]
  · simp only [Channel.swung, htick, if_false]

/-- Inside a phase the distances add up. -/
theorem swung_trevi_iterate (d : Int) (phase : Bool) : ∀ j, j ≤ c.treviConfig.toNat % 32 →
    Channel.trevi^[j] (c.swung d 0 phase) = c.swung (d + j * c.swingOf phase) (BitVec.ofNat 5 j) phase
  | 0, _ => by simp
  | j + 1, hj => by
    have hmod := Nat.mod_lt c.treviConfig.toNat (by decide : 0 < 32)
    have htick : (BitVec.ofNat 5 j).toNat < c.treviConfig.toNat % 32 := by
      rw [BitVec.toNat_ofNat]; omega
    rw [Function.iterate_succ_apply', swung_trevi_iterate d phase j (by omega),
      swung_trevi hdepth hunbounded, if_pos htick, BitVec.ofNat_add]
    congr 1
    push_cast
    ring

/-- A whole phase of `P + 1` ticks flips the phase and starts the count again. -/
theorem swung_trevi_phase (d : Int) (phase : Bool) :
    Channel.trevi^[c.treviConfig.toNat % 32 + 1] (c.swung d 0 phase) =
      c.swung (d + (c.treviConfig.toNat % 32 + 1 : Nat) * c.swingOf phase) 0 (!phase) := by
  have hmod := Nat.mod_lt c.treviConfig.toNat (by decide : 0 < 32)
  have htick : ¬ (BitVec.ofNat 5 (c.treviConfig.toNat % 32)).toNat < c.treviConfig.toNat % 32 := by
    rw [BitVec.toNat_ofNat]; omega
  rw [Function.iterate_succ_apply', swung_trevi_iterate hdepth hunbounded d phase _ le_rfl,
    swung_trevi hdepth hunbounded, if_neg htick]
  congr 1
  push_cast
  ring

end Swing

/-- The two phases of a cycle move in opposite directions. -/
theorem swingOf_not (c : Channel) (phase : Bool) : c.swingOf (!phase) = -c.swingOf phase := by
  cases phase <;> simp [Channel.swingOf]

/-- Settles O33: two phases of `P + 1` ticks whose distances cancel (`swung_trevi_phase`). -/
theorem unboundedTremoloIsPeriodic : Obligations.UnboundedTremoloIsPeriodic := by
  unfold Obligations.UnboundedTremoloIsPeriodic
  intro c hunbounded htick
  by_cases hdepth : c.treviDepth = 0
  · exact Function.iterate_fixed (trevi_gate hdepth) _
  · have hself : c.swung 0 0 c.treviPhase = c := by
      rw [← htick]
      exact swung_self c
    calc Channel.trevi^[2 * (c.treviConfig.toNat % 32 + 1)] c
        = Channel.trevi^[c.treviConfig.toNat % 32 + 1]
            (Channel.trevi^[c.treviConfig.toNat % 32 + 1] (c.swung 0 0 c.treviPhase)) := by
          rw [← Function.iterate_add_apply, ← Nat.two_mul, hself]
      _ = c.swung 0 0 c.treviPhase := by
          rw [swung_trevi_phase hdepth hunbounded, swung_trevi_phase hdepth hunbounded, swingOf_not,
            Bool.not_not]
          congr 1
          ring
      _ = c := hself

/-! ### Bounded effects stay in range (R242) -/

/-- Volume in 0..63 and frequency in 0..9397. -/
def SoundInRange (c : Channel) : Prop := c.volume.toNat ≤ 63 ∧ c.frequency.toNat ≤ 9397

/-- A bounded move ends inside the bounds, wherever it leads. -/
theorem SoundInRange.move {c : Channel} (h : SoundInRange c) (onFreq : Bool) (d : Int) :
    SoundInRange (c.move onFreq false d) := by
  obtain ⟨hvol, hfreq⟩ := h
  cases onFreq
  · have hclamp := (boundVol_spec false (c.volume.toNat + d)).1 rfl
    rw [move_volume]
    exact ⟨show (boundVol false _).toNat ≤ 63 by omega, hfreq⟩
  · have hclamp := (boundFreq_spec false (c.frequency.toNat + d)).1 rfl
    rw [move_frequency]
    exact ⟨hvol, show (boundFreq false _).toNat ≤ 9397 by omega⟩

section Range

variable {c : Channel} (h : SoundInRange c)
include h

theorem SoundInRange.slide (hbounded : c.slideConfig.getLsbD 7 = false) : SoundInRange c.slide := by
  by_cases hstep : c.slideStep = 0
  · rwa [slide_gate hstep]
  · rcases Nat.lt_or_ge (c.slideCount.toNat + 1) (c.slideConfig.toNat % 64) with hcount | hfire
    · rw [slide_counts hstep hcount]
      exact h
    · rw [slide_fires hstep hfire, show c.slideUnbounded = false from hbounded]
      exact SoundInRange.move (c := { c with slideCount := 0 }) h _ _

theorem SoundInRange.trevi (hbounded : c.treviConfig.getLsbD 7 = false) : SoundInRange c.trevi := by
  by_cases hdepth : c.treviDepth = 0
  · rwa [trevi_gate hdepth]
  · have hmoved : SoundInRange c.treviMoved := by
      rw [Channel.treviMoved, show c.treviUnbounded = false from hbounded]
      exact h.move _ _
    rw [trevi_eq hdepth]
    exact hmoved

variable {p : Params} (hwf : p.wf = true)
include hwf

theorem SoundInRange.arpCut : SoundInRange (c.arpCut p) := by
  have hfreq : (c.arpFreq p (nextArpPhase c.arpPhase c.arpSkipThird c.noteCut)).toNat ≤ 9397 := by
    unfold Channel.arpFreq
    split
    · exact Nat.zero_le _
    · exact noteFreq_le hwf _
  unfold Channel.arpCut
  split
  · exact h
  · split
    · exact h
    · exact ⟨h.1, hfreq⟩

theorem SoundInRange.glissando : SoundInRange (c.glissando p) := by
  unfold Channel.glissando
  split
  · exact h
  · dsimp only
    split
    · exact ⟨h.1, noteFreq_le hwf _⟩
    · exact h

theorem SoundInRange.retrigger : SoundInRange (c.retrigger p) := by
  unfold Channel.retrigger
  split
  · exact h
  · dsimp only
    split
    · exact ⟨h.1, noteFreq_le hwf _⟩
    · exact h

end Range

/-- Settles O36: each of the five processors keeps the range; the unbounded bit of tremolo and vibrato is the
one from before the slide and the arpeggio, which do not write it. -/
theorem boundedEffectsStayInRange : Obligations.BoundedEffectsStayInRange := by
  unfold Obligations.BoundedEffectsStayInRange
  intro p c hwf hslide htrevi hvol hfreq
  have hrange : SoundInRange (c.slide.arpCut p) := (SoundInRange.slide ⟨hvol, hfreq⟩ hslide).arpCut hwf
  have hbounded : (c.slide.arpCut p).treviConfig.getLsbD 7 = false := by
    rw [arpCut_writes, slide_writes]
    exact htrevi
  exact ((hrange.trevi hbounded).glissando hwf).retrigger hwf

/-! ### What no processor writes (R240, R263) -/

/-- The channel with the registers that the processors may write taken from `x`. -/
def Channel.withEffectsOf (c x : Channel) : Channel :=
  { c with
    note := x.note
    frequency := x.frequency
    volume := x.volume
    slideCount := x.slideCount
    arpPhase := x.arpPhase
    arpTick := x.arpTick
    treviTick := x.treviTick
    treviPhase := x.treviPhase
    glisCount := x.glisCount
    retrigCount := x.retrigCount }

/-- Going from one channel to the other changes effect registers only. -/
def EffectsOnly (c x : Channel) : Prop := x = c.withEffectsOf x

theorem EffectsOnly.trans {a b c : Channel} (h : EffectsOnly a b) (k : EffectsOnly b c) : EffectsOnly a c :=
  calc c = b.withEffectsOf c := k
    _ = (a.withEffectsOf b).withEffectsOf c := by rw [← h]
    _ = a.withEffectsOf c := rfl

theorem runEffects_effectsOnly (p : Params) (c : Channel) : EffectsOnly c (c.runEffects p) := by
  have hslide : ∀ c : Channel, EffectsOnly c c.slide := fun c => by rw [slide_writes]; rfl
  have harp : ∀ c : Channel, EffectsOnly c (c.arpCut p) := fun c => by rw [arpCut_writes]; rfl
  have htrevi : ∀ c : Channel, EffectsOnly c c.trevi := fun c => by rw [trevi_writes]; rfl
  have hglis : ∀ c : Channel, EffectsOnly c (c.glissando p) := fun c => by rw [glissando_writes]; rfl
  have hretrig : ∀ c : Channel, EffectsOnly c (c.retrigger p) := fun c => by rw [retrigger_writes]; rfl
  exact ((((hslide c).trans (harp _)).trans (htrevi _)).trans (hglis _)).trans (hretrig _)

/-- Settles O37: with every gate 0 each processor in turn is the identity; the frame is
`runEffects_effectsOnly`. -/
theorem effectsWriteOnlyTheirRegisters : Obligations.EffectsWriteOnlyTheirRegisters := by
  unfold Obligations.EffectsWriteOnlyTheirRegisters
  refine fun p c => ⟨fun hslide harp htrevi hglis hretrig => ?_, runEffects_effectsOnly p c⟩
  rw [Channel.runEffects, slide_gate hslide, arpCut_gate p (.inl harp), trevi_gate htrevi,
    glissando_gate p hglis, retrigger_gate p hretrig]

end Sys2Proof.Machine
end

section
/-! The tick routine, phase by phase (40_tick_routine.md R130 to R140), and the beginning of an event
(60_exceptions.md R301). -/

namespace Sys2Proof.Machine

/-! ### The beginning of an event -/

/-- The only pending event begins. -/
theorem idleStep_single {s : State} {e : Event} (h : s.pending = [e]) :
    s.idleStep = { s with pending := [] }.startEvent e := by
  simp only [State.idleStep, h]

/-- A step of an idle block with one event pending begins it. -/
theorem step_single {s : State} {e : Event} (hreset : s.resetIn = false) (hphase : s.phase = .idle)
    (h : s.pending = [e]) : step s = .next ({ s with pending := [] }.startEvent e) := by
  rw [step_idle hreset hphase, idleStep_single h]

/-- Settles O48: `idleStep_spec` names the event and the count of choices. -/
theorem onePendingEventBegins : Obligations.OnePendingEventBegins := by
  unfold Obligations.OnePendingEventBegins
  intro s hreset hphase
  rw [step_idle hreset hphase]
  rcases idleStep_spec s with ⟨hnone, hrest⟩ | ⟨k, n, hk, hbegin⟩
  · exact ⟨fun _ => by rw [hrest], fun hsome => absurd hnone hsome⟩
  · refine ⟨fun hnone => ?_, fun _ => ⟨k, n, _, hk, rfl, ?_, hbegin⟩⟩
    · rw [hnone] at hk
      exact absurd hk (Nat.not_lt_zero k)
    · obtain ⟨-, -, -, -, hpending, -⟩ :=
        startEvent_kept { s with pending := s.pending.eraseIdx k, choices := n } s.pending[k]
      rw [hbegin, hpending]

theorem beginTick_disabled {s : State} (h : s.tickEnable = false) : s.beginTick = s :=
  if_neg (by rw [h]; exact Bool.false_ne_true)

theorem beginTick_enabled {s : State} (h : s.tickEnable = true) :
    s.beginTick = { s with phase := .service, cur := 0 } := if_pos h

/-- Settles O38: `step_single` with the two cases of a tick that begins. -/
theorem disabledTickIsDropped : Obligations.DisabledTickIsDropped := by
  unfold Obligations.DisabledTickIsDropped
  intro s hreset hphase hpending
  rw [step_single hreset hphase hpending]
  exact ⟨fun h => congrArg _ (beginTick_disabled (s := { s with pending := [] }) h),
    fun h => congrArg _ (beginTick_enabled (s := { s with pending := [] }) h)⟩

/-! ### The gate of a channel (R131) -/

theorem nextChannel_last {s : State} (h : s.cur = 3) :
    s.nextChannel = { s with phase := .autoStopCheck, cur := 0 } := if_pos h

theorem nextChannel_succ {s : State} (h : s.cur ≠ 3) :
    s.nextChannel = { s with phase := .service, cur := s.cur + 1 } := if_neg h

theorem step_skips {s : State} (hreset : s.resetIn = false) (hphase : s.phase = .service)
    (h : s.active s.cur = false ∨ s.curChan.fault ≠ 0) : step s = .next s.nextChannel := by
  rw [step_service hreset hphase, State.serviceStep, if_pos h]

theorem step_serves {s : State} (hreset : s.resetIn = false) (hphase : s.phase = .service)
    (hactive : s.active s.cur = true) (hfault : s.curChan.fault = 0) :
    step s = .next ((s.setCur (s.curChan.runEffects s.params)).setPhase .sequence) := by
  have hgate : ¬ (s.active s.cur = false ∨ s.curChan.fault ≠ 0) :=
    not_or.mpr ⟨by rw [hactive]; exact nofun, not_not.mpr hfault⟩
  rw [step_service hreset hphase, State.serviceStep, if_neg hgate]

/-- Settles O39: `step_skips`, with the next channel or the end of the tick. -/
theorem inactiveOrFaultedChannelIsSkipped : Obligations.InactiveOrFaultedChannelIsSkipped := by
  unfold Obligations.InactiveOrFaultedChannelIsSkipped
  intro s hreset hphase hgate
  rw [step_skips hreset hphase hgate]
  exact ⟨fun hcur => congrArg _ (nextChannel_last hcur), fun hcur => congrArg _ (nextChannel_succ hcur)⟩

/-! ### The sequencer (R133, R134) -/

theorem setCur_curChan_self (s : State) : s.setCur s.curChan = s :=
  (OnlyCur.eq ⟨⟨fun _ _ => rfl, rfl, rfl, rfl, rfl, rfl, fun _ => rfl, fun _ => rfl, rfl, rfl, rfl, rfl, rfl,
    rfl, rfl⟩, rfl⟩).symm

/-- The sequencer counts a delay down, which leaves a delay of 0, and fetches only at 0. -/
theorem sequenceStep_eq (s : State) :
    s.sequenceStep =
      (s.setCur s.curChan.countDown).setPhase (if s.curChan.delay = 0 then .interpret else .publishFreq) := by
  by_cases h : s.curChan.delay = 0
  · rw [State.sequenceStep, if_neg (not_not.mpr h), if_pos h, countDown_rest (.inl h), setCur_curChan_self]
  · rw [State.sequenceStep, if_pos h, if_neg h]

theorem setPhase_setCur (s : State) (p : Phase) (x : Channel) :
    (s.setPhase p).setCur x = (s.setCur x).setPhase p := rfl

/-- Two steps of the service: the effects, then the delay. -/
theorem stepN_serves {s : State} (hreset : s.resetIn = false) (hphase : s.phase = .service)
    (hactive : s.active s.cur = true) (hfault : s.curChan.fault = 0) :
    stepN 2 s = .next ((s.setCur (s.curChan.runEffects s.params).countDown).setPhase
      (if s.curChan.delay = 0 then .interpret else .publishFreq)) := by
  have hdelay := (runEffects_sequencer s.params s.curChan).2
  have hsequence := step_sequence (s := (s.setCur (s.curChan.runEffects s.params)).setPhase .sequence)
    hreset rfl
  rw [stepN_succ (n := 1) (step_serves hreset hphase hactive hfault),
    stepN_succ (n := 0) hsequence, sequenceStep_eq, State.setPhase_curChan,
    State.setCur_curChan, hdelay, setPhase_setCur, State.setCur_setCur]
  rfl

/-- Settles O40: `stepN_serves`; counting down leaves a delay of 0 and the sentinel. -/
theorem serviceRunsEffectsThenWaitsOrFetches : Obligations.ServiceRunsEffectsThenWaitsOrFetches := by
  unfold Obligations.ServiceRunsEffectsThenWaitsOrFetches
  intro s hreset hphase hactive hfault
  have hdelay := (runEffects_sequencer s.params s.curChan).2
  refine ⟨_, s.curChan.runEffects s.params, stepN_serves hreset hphase hactive hfault,
    sameOutside_setCur s _, rfl, fun h0 => ?_, fun hx => ?_, fun h0 hx => ?_⟩ <;>
    rw [State.setPhase_phase, State.setPhase_curChan, State.setCur_curChan]
  · exact ⟨if_pos h0, countDown_rest (.inl (hdelay.trans h0))⟩
  · have h0 : s.curChan.delay ≠ 0 := by rw [hx]; decide
    exact ⟨if_neg h0, countDown_rest (.inr (hdelay.trans hx))⟩
  · refine ⟨if_neg h0, ?_⟩
    rw [countDown_counts (by rwa [hdelay]) (by rwa [hdelay]), hdelay]

/-- A delay that is not 0 counts this tick, unless it is the sentinel (R133, R136). -/
theorem countDown_eq {c : Channel} (h0 : c.delay ≠ 0) :
    c.countDown = { c with delay := if c.delay = 0xFFFF then 0xFFFF else c.delay - 1 } := by
  by_cases hx : c.delay = 0xFFFF
  · rw [countDown_rest (.inr hx), if_pos hx, ← hx]
  · rw [countDown_counts h0 hx, if_neg hx]

/-- From the test a fault leads on to the next channel, without publishing (R131). -/
theorem loopTestStep_faulted {s : State} (h : s.curChan.fault ≠ 0) : s.loopTestStep = s.nextChannel :=
  if_pos h

theorem loopTestStep_waits {s : State} (hfault : s.curChan.fault = 0) (hdelay : s.curChan.delay ≠ 0) :
    s.loopTestStep = (s.setCur s.curChan.countDown).setPhase .publishFreq := by
  rw [State.loopTestStep, if_neg (not_not.mpr hfault), if_pos hdelay]

theorem loopTestStep_goesOn {s : State} (hfault : s.curChan.fault = 0) (hdelay : s.curChan.delay = 0) :
    s.loopTestStep = s.setPhase .interpret := by
  rw [State.loopTestStep, if_neg (not_not.mpr hfault), if_neg (not_not.mpr hdelay)]

/-- Settles O41: one equation of the loop's test for each clause. -/
theorem loopEndsOnDelayOrFault : Obligations.LoopEndsOnDelayOrFault := by
  unfold Obligations.LoopEndsOnDelayOrFault
  intro s hreset hphase
  rw [step_loopTest hreset hphase]
  refine ⟨fun hfault hdelay => congrArg _ (loopTestStep_goesOn hfault hdelay), fun hfault hdelay => ?_,
    fun hfault hcur => ?_, fun hfault hcur => ?_⟩
  · rw [loopTestStep_waits hfault hdelay, countDown_eq hdelay]
    exact ⟨_, onlyCur_setCur s _, rfl⟩
  · rw [loopTestStep_faulted hfault, nextChannel_last hcur]
  · rw [loopTestStep_faulted hfault, nextChannel_succ hcur]

/-! ### Publishing (R138) -/

/-- The state with the frequency of the channel in service published, or not: muted, or channel 3. -/
def State.freqPublished (s : State) : State :=
  if s.muted s.cur ∨ s.cur = 3 then s else s.setOscFreq s.cur s.curChan.frequency

/-- The state with its volume published, or not: muted. -/
def State.volPublished (s : State) : State :=
  if s.muted s.cur then s else s.setOscVol s.cur s.publishedVol

theorem publishFreqStep_freqPublished (s : State) :
    s.publishFreqStep = s.freqPublished.setPhase .publishVol := by
  unfold State.publishFreqStep State.freqPublished
  split <;> rfl

theorem publishVolStep_volPublished (s : State) : s.publishVolStep = s.volPublished.nextChannel := by
  unfold State.publishVolStep State.volPublished
  split <;> rfl

/-- Publishing the volume does not read the phase. -/
theorem volPublished_setPhase (s : State) (p : Phase) :
    (s.setPhase p).volPublished = s.volPublished.setPhase p := by
  unfold State.volPublished
  rw [State.setPhase_muted, State.setPhase_cur]
  split <;> rfl

/-- Publishing writes the Oscillator Output only. -/
theorem freqPublished_osc (s : State) : s.freqPublished = { s with osc := s.freqPublished.osc } := by
  unfold State.freqPublished
  split <;> rfl

theorem volPublished_osc (s : State) : s.volPublished = { s with osc := s.volPublished.osc } := by
  unfold State.volPublished
  split <;> rfl

/-- What publishing the frequency leaves, as publishing the volume reads it. -/
theorem freqPublished_kept (s : State) :
    s.freqPublished.cur = s.cur ∧ s.freqPublished.muted s.cur = s.muted s.cur ∧
      s.freqPublished.publishedVol = s.publishedVol ∧ s.freqPublished.resetIn = s.resetIn := by
  rw [freqPublished_osc]
  exact ⟨rfl, rfl, rfl, rfl⟩

theorem freqPublished_slot_other (s : State) {n : Fin 4} (h : n ≠ s.cur) :
    s.freqPublished.slot n = s.slot n := by
  unfold State.freqPublished
  split
  · rfl
  · rw [State.setOscFreq_slot, if_neg h]

theorem volPublished_slot_other (s : State) {n : Fin 4} (h : n ≠ s.cur) :
    s.volPublished.slot n = s.slot n := by
  unfold State.volPublished
  split
  · rfl
  · rw [State.setOscVol_slot, if_neg h]

theorem freqPublished_silent {s : State} (h : s.muted s.cur = true ∨ s.cur = 3) : s.freqPublished = s :=
  if_pos h

theorem volPublished_muted {s : State} (h : s.muted s.cur = true) : s.volPublished = s := if_pos h

theorem freqPublished_slot {s : State} (hmuted : s.muted s.cur = false) (hcur : s.cur ≠ 3) :
    s.freqPublished.slot s.cur = { freq := s.curChan.frequency, vol := (s.slot s.cur).vol } := by
  have hgate : ¬ (s.muted s.cur = true ∨ s.cur = 3) := not_or.mpr ⟨by rw [hmuted]; exact nofun, hcur⟩
  rw [State.freqPublished, if_neg hgate, State.setOscFreq_slot, if_pos rfl]

theorem volPublished_slot {s : State} (hmuted : s.muted s.cur = false) :
    s.volPublished.slot s.cur = { freq := (s.slot s.cur).freq, vol := s.publishedVol } := by
  have hgate : ¬ s.muted s.cur = true := by rw [hmuted]; exact nofun
  rw [State.volPublished, if_neg hgate, State.setOscVol_slot, if_pos rfl]

/-- The state with both published. -/
def State.published (s : State) : State := s.freqPublished.volPublished

theorem published_osc (s : State) : s.published = { s with osc := s.published.osc } := by
  have hvol : s.published = { s.freqPublished with osc := s.published.osc } :=
    volPublished_osc s.freqPublished
  generalize s.published = t at hvol ⊢
  exact hvol.trans (by rw [freqPublished_osc])

theorem published_slot_other (s : State) {n : Fin 4} (h : n ≠ s.cur) : s.published.slot n = s.slot n := by
  have hcur := (freqPublished_kept s).1
  exact (volPublished_slot_other _ (by rwa [hcur])).trans (freqPublished_slot_other s h)

theorem published_muted {s : State} (h : s.muted s.cur = true) : s.published = s := by
  rw [State.published, freqPublished_silent (.inl h), volPublished_muted h]

/-- The slot that an unmuted channel publishes: the frequency of the first step, the volume of the second. -/
theorem published_slot {s : State} (h : s.muted s.cur = false) :
    s.published.slot s.cur = { freq := (s.freqPublished.slot s.cur).freq, vol := s.publishedVol } := by
  obtain ⟨hcur, hmuted, hvol, -⟩ := freqPublished_kept s
  have hslot := volPublished_slot (s := s.freqPublished) (by rw [hcur, hmuted, h])
  rwa [hcur, hvol] at hslot

theorem step_publishes_freq {s : State} (hreset : s.resetIn = false) (hphase : s.phase = .publishFreq) :
    step s = .next (s.freqPublished.setPhase .publishVol) := by
  rw [step_publishFreq hreset hphase, publishFreqStep_freqPublished]

theorem stepN_publishes {s : State} (hreset : s.resetIn = false) (hphase : s.phase = .publishFreq) :
    stepN 2 s = .next (s.published.setPhase .publishVol).nextChannel := by
  have hvol := step_publishVol (s := s.freqPublished.setPhase .publishVol)
    ((freqPublished_kept s).2.2.2.trans hreset) rfl
  rw [stepN_succ (n := 1) (step_publishes_freq hreset hphase), stepN_succ (n := 0) hvol,
    publishVolStep_volPublished, volPublished_setPhase]
  rfl

/-- Settles O42: the two states are `freqPublished` and `published`; each clause reads their slots. -/
theorem publishWritesTheSlotOfItsChannel : Obligations.PublishWritesTheSlotOfItsChannel := by
  unfold Obligations.PublishWritesTheSlotOfItsChannel
  intro s hreset hphase
  have hcur : (s.published.setPhase .publishVol).cur = s.cur := by rw [published_osc]; rfl
  refine ⟨s.freqPublished, s.published, step_publishes_freq hreset hphase, freqPublished_osc s,
    published_osc s, fun h3 => ?last, fun h3 => ?next, fun n hn => ?others, fun hmute => ?silent,
    fun hmute h3 => ?sounds, fun hmute h3 => ?noise⟩
  case last =>
    rw [stepN_publishes hreset hphase, nextChannel_last (hcur.trans h3)]
    rfl
  case next =>
    rw [stepN_publishes hreset hphase, nextChannel_succ (by rwa [hcur]), hcur]
    rfl
  case others => exact ⟨freqPublished_slot_other s hn, published_slot_other s hn⟩
  case silent =>
    rw [freqPublished_silent (.inl hmute), published_muted hmute]
    exact ⟨rfl, rfl⟩
  case sounds =>
    have hfreq := freqPublished_slot hmute h3
    rw [published_slot hmute, hfreq, State.publishedVol, if_neg h3]
    exact ⟨rfl, rfl⟩
  case noise =>
    rw [published_slot hmute, freqPublished_silent (.inr h3), State.publishedVol, if_pos h3]
    exact ⟨rfl, rfl⟩

/-! ### Stopping (R140, 47_host_commands.md R274) -/

/-- The state that `StopActions` and the eight steps after it leave. -/
def State.stopped (s : State) : State :=
  { s.stopActions with
    osc := Vector.replicate 4 { freq := 0, vol := 0 }, phase := Silencing.stop.after, cur := 0 }

theorem stepN_stopActions {s : State} (hreset : s.resetIn = false) :
    stepN 8 s.stopActions = .next s.stopped :=
  stepN_silence s.stopActions .stop hreset rfl rfl

/-- Every slot of an Oscillator Output of zeros is zero. -/
theorem slot_of_osc_replicate {s : State} (h : s.osc = Vector.replicate 4 { freq := 0, vol := 0 })
    (n : Fin 4) : s.slot n = { freq := 0, vol := 0 } := by
  simp [State.slot, h]

theorem stopped_slot (s : State) (n : Fin 4) : s.stopped.slot n = { freq := 0, vol := 0 } :=
  slot_of_osc_replicate rfl n

theorem stopped_chan (s : State) (c : Fin 4) : s.stopped.chan c = Channel.zero := State.chan_replicate rfl c

theorem stopped_isStopped (s : State) : s.stopped.isStopped :=
  ⟨activeNibble_stopActions s, rfl, stopped_chan s⟩

/-- With no active bit set there is none to clear. -/
theorem maskNoneActive_of_lt {m : Byte} (h : m.toNat < 16) : maskNoneActive m = m := by
  refine BitVec.eq_of_toNat_eq ?_
  rw [maskNoneActive, BitVec.toNat_and]
  exact (Nat.and_two_pow_sub_one_eq_mod m.toNat 4).trans (Nat.mod_eq_of_lt h)

theorem activeNibble_eq_zero_iff (s : State) : s.activeNibble = 0 ↔ s.mask.toNat / 16 = 0 := by
  rw [← activeNibble_toNat, ← BitVec.toNat_inj]
  rfl

/-- Auto-stop: the check, then the steps of a stop. -/
theorem stepN_autoStop {s : State} (hreset : s.resetIn = false) (hphase : s.phase = .autoStopCheck)
    (h : s.activeNibble = 0) : stepN 9 s = .next s.stopped := by
  have hstep : step s = .next s.stopActions := by
    rw [step_autoStopCheck hreset hphase, State.autoStopStep, if_pos h]
  rw [stepN_succ hstep, stepN_stopActions hreset]

/-- With no channel active the four channels are passed over. -/
theorem stepN_skips {s : State} (hreset : s.resetIn = false) (h : s.activeNibble = 0) :
    stepN 4 { s with phase := .service, cur := 0 } = .next { s with phase := .autoStopCheck, cur := 0 } := by
  have hskip : ∀ c : Fin 4, step { s with phase := .service, cur := c } =
      .next { s with phase := .service, cur := c }.nextChannel := fun c =>
    step_skips (s := { s with phase := .service, cur := c }) hreset rfl (.inl (by
      have hactive := active_eq s c
      rw [h, BitVec.ofNat_eq_ofNat, BitVec.getLsbD_zero] at hactive
      exact hactive))
  have hnext : ∀ c : Fin 4, c ≠ 3 → step { s with phase := .service, cur := c } =
      .next { s with phase := .service, cur := c + 1 } := fun c hc =>
    (hskip c).trans (congrArg _ (nextChannel_succ hc))
  calc stepN 4 { s with phase := .service, cur := 0 }
      = stepN 3 { s with phase := .service, cur := 1 } := stepN_succ (hnext 0 (by decide))
    _ = stepN 2 { s with phase := .service, cur := 2 } := stepN_succ (hnext 1 (by decide))
    _ = stepN 1 { s with phase := .service, cur := 3 } := stepN_succ (hnext 2 (by decide))
    _ = .next { s with phase := .autoStopCheck, cur := 0 } :=
      stepN_succ (n := 0) ((hskip 3).trans (congrArg _ (nextChannel_last rfl)))

/-- Settles O43: the check at the end of a tick by `stepN_autoStop`; the whole tick of the fourth combination
is its first step, `stepN_skips` and `stepN_autoStop`. -/
theorem autoStopStopsAnInactiveBlock : Obligations.AutoStopStopsAnInactiveBlock := by
  unfold Obligations.AutoStopStopsAnInactiveBlock
  have hmask : ∀ s : State, s.mask.toNat / 16 = 0 → s.stopped.mask = s.mask := fun s h =>
    maskNoneActive_of_lt (by omega)
  refine ⟨fun s hreset hphase => ⟨fun hsome => ?_, fun hnone => ?_⟩, fun s hreset hphase hpending hticking => ?_⟩
  · rw [step_autoStopCheck hreset hphase, State.autoStopStep,
      if_neg (fun h => hsome ((activeNibble_eq_zero_iff s).mp h))]
  · exact ⟨_, stepN_autoStop hreset hphase ((activeNibble_eq_zero_iff s).mpr hnone), rfl, rfl, hmask s hnone,
      stopped_chan s, stopped_slot s, rfl, rfl, rfl, rfl, rfl, stopped_isStopped s⟩
  · obtain ⟨hnone, henabled⟩ := hticking
    have hbegin : step s = .next { s with pending := [], phase := .service, cur := 0 } :=
      (step_single hreset hphase hpending).trans
        (congrArg _ (beginTick_enabled (s := { s with pending := [] }) henabled))
    have hskips := stepN_skips (s := { s with pending := [] }) hreset hnone
    have hstop := stepN_autoStop (s := { s with pending := [], phase := .autoStopCheck, cur := 0 }) hreset rfl
      hnone
    have hrun : stepN 14 s = _ := (stepN_succ (n := 4 + 9) hbegin).trans ((stepN_add hskips).trans hstop)
    exact ⟨_, hrun, rfl, rfl, hmask s ((activeNibble_eq_zero_iff s).mp hnone), stopped_isStopped _,
      stopped_slot _, rfl, rfl, rfl, rfl⟩

end Sys2Proof.Machine
end

section
/-! The interpreter loop ends, and so does every event (40_tick_routine.md R137). Every turn of the loop that
neither faults nor sets a delay brings the channel lexicographically down, the outermost call first: inside a
call the cursor rises or a repetition is used up, a call moves the caller's cursor on before the deeper
levels count, and a pop is a step down at the level it returns to, because a suspended level weighs one more
than a running one. -/

namespace Sys2Proof.Machine

/-! ### The rank of a channel in the loop -/

/-- What is left to do at one level of the call stack: the repetitions, then the bytes below 0xFFFF. -/
def loopWeight (cnt : Byte) (cursor : Word) : Nat := cnt.toNat * 65536 + (65535 - cursor.toNat)

/-- What is left to do, level by level: suspended callers, the running track, nothing above it. -/
def loopRank (c : Channel) (level : Fin 8) : Nat :=
  if level.val < c.sp.toNat then 2 * loopWeight (c.frame level).cnt (c.frame level).ret + 1
  else if level.val = c.sp.toNat then 2 * loopWeight c.repeatCounter c.cursor
  else 0

/-- `x` has less to do than `c`: at some level, all outer ones being equal. -/
def LoopBelow (x c : Channel) : Prop := Pi.Lex (· < ·) (· < ·) (loopRank x) (loopRank c)

theorem loopBelow_wellFounded : WellFounded LoopBelow :=
  InvImage.wf loopRank (Pi.Lex.wellFounded (· < ·) fun _ => wellFounded_lt)

theorem loopRank_suspended {c : Channel} {level : Fin 8} (h : level.val < c.sp.toNat) :
    loopRank c level = 2 * loopWeight (c.frame level).cnt (c.frame level).ret + 1 := if_pos h

theorem loopRank_running {c : Channel} {level : Fin 8} (h : level.val = c.sp.toNat) :
    loopRank c level = 2 * loopWeight c.repeatCounter c.cursor := by
  rw [loopRank, if_neg (by omega), if_pos h]

theorem loopWeight_lt_of_cursor_lt {cnt : Byte} {x c : Word} (h : c.toNat < x.toNat) :
    loopWeight cnt x < loopWeight cnt c := by
  have hx := x.isLt
  unfold loopWeight
  omega

/-- Using up a repetition counts for more than any jump back. -/
theorem loopWeight_restart_lt {cnt : Byte} (h : cnt ≠ 0) (x c : Word) :
    loopWeight (cnt - 1) x < loopWeight cnt c := by
  have hx := x.isLt
  have hc := c.isLt
  have hcnt : (cnt - 1).toNat + 1 = cnt.toNat := by bv_omega
  unfold loopWeight
  omega

/-- Less to do in the running track, the callers being as they are. -/
theorem loopBelow_running {x c : Channel} (hsp : x.sp = c.sp) (hstack : x.stack = c.stack)
    (hweight : loopWeight x.repeatCounter x.cursor < loopWeight c.repeatCounter c.cursor) :
    LoopBelow x c := by
  obtain ⟨top, htop⟩ : ∃ top : Fin 8, top.val = c.sp.toNat := ⟨⟨_, c.sp.isLt⟩, rfl⟩
  refine ⟨top, fun level hlevel => ?_, ?_⟩
  · have hbelow : level.val < c.sp.toNat := by omega
    rw [loopRank_suspended (c := c) hbelow, loopRank_suspended (c := x) (by rwa [hsp]), Channel.frame, hstack,
      Channel.frame]
  · dsimp only
    rw [loopRank_running (c := c) htop, loopRank_running (c := x) (by rw [hsp, htop])]
    omega

/-- An instruction that moves the cursor on. -/
theorem loopBelow_of_cursor_lt {x c : Channel} (hcall : SameCallRegs c x)
    (hcursor : c.cursor.toNat < x.cursor.toNat) : LoopBelow x c := by
  refine loopBelow_running hcall.sp hcall.stack ?_
  rw [hcall.repeatCounter]
  exact loopWeight_lt_of_cursor_lt hcursor

/-- A call suspends the running track behind its own bytes. -/
theorem loopBelow_pushCall {c : Channel} {n : Nat} (hdepth : c.sp ≠ 7) (hn : 0 < n)
    (hfits : c.cursor.toNat + n ≤ 0xFFFF) (r t : Byte) (w : Word) :
    LoopBelow ((c.advance n).pushCall r t w) c := by
  have hsp : ((c.advance n).pushCall r t w).sp.toNat = c.sp.toNat + 1 :=
    Channel.pushCall_sp_toNat (c := c.advance n) hdepth r t w
  obtain ⟨top, htop⟩ : ∃ top : Fin 8, top.val = c.sp.toNat := ⟨⟨_, c.sp.isLt⟩, rfl⟩
  refine ⟨top, fun level hlevel => ?_, ?_⟩
  · have hbelow : level.val < c.sp.toNat := by omega
    have hframe : ((c.advance n).pushCall r t w).frame level = c.frame level :=
      pushCall_frame_below (c.advance n) r t w (by rw [Channel.advance_sp]; omega)
    rw [loopRank_suspended (c := c) hbelow, loopRank_suspended (by omega), hframe]
  · have hframe : ((c.advance n).pushCall r t w).frame c.sp.toNat =
        { ret := (c.advance n).cursor, cnt := c.repeatCounter, trk := c.trackId } :=
      pushCall_frame_top (c := c.advance n) hdepth r t w
    have hweight : loopWeight c.repeatCounter (c.advance n).cursor < loopWeight c.repeatCounter c.cursor :=
      loopWeight_lt_of_cursor_lt (by rw [advance_cursor_toNat hfits]; omega)
    dsimp only
    rw [loopRank_running (c := c) htop, loopRank_suspended (by omega), htop, hframe]
    dsimp only
    omega

/-- A pop lets the caller run again. -/
theorem loopBelow_popCall {c : Channel} (hsp : c.sp ≠ 0) : LoopBelow c.popCall c := by
  have hdepth : c.popCall.sp.toNat = c.sp.toNat - 1 := by rw [Channel.popCall_sp]; bv_omega
  have hpos : 0 < c.sp.toNat := by bv_omega
  obtain ⟨top, htop⟩ : ∃ top : Fin 8, top.val = c.sp.toNat - 1 :=
    ⟨⟨_, lt_of_le_of_lt (Nat.sub_le _ _) c.sp.isLt⟩, rfl⟩
  refine ⟨top, fun level hlevel => ?_, ?_⟩
  · have hbelow : level.val < c.sp.toNat - 1 := by omega
    rw [loopRank_suspended (c := c) (by omega), loopRank_suspended (by omega), Channel.popCall_frame]
  · dsimp only
    rw [loopRank_running (c := c.popCall) (by omega), loopRank_suspended (c := c) (by omega), htop]
    exact Nat.lt_succ_self _

/-- A turn of the loop ends it, by a fault or a delay, or leaves less to do. -/
theorem InstrOutcome.ends_or_loopBelow {i : Instr} {s t : State} (h : InstrOutcome i s t) :
    (t.curChan.delay ≠ 0 ∨ t.curChan.fault ≠ 0) ∨ LoopBelow t.curChan s.curChan := by
  cases h with
  | fault cause =>
    rw [State.raise_curChan]
    exact .inl (.inr (faultCode_ne_zero cause))
  | plain x fits cursor size kept call =>
    rw [State.setCur_curChan]
    exact .inr (loopBelow_of_cursor_lt call (by omega))
  | tempo v isTempo ne fits =>
    rw [State.setTempo_curChan, State.setCur_curChan]
    exact .inr (loopBelow_of_cursor_lt ⟨rfl, rfl, rfl, rfl⟩ (by rw [advance_cursor_toNat fits]; omega))
  | call r t w isCall fits size depth =>
    rw [State.setCur_curChan]
    exact .inr (loopBelow_pushCall depth size fits r t w)
  | restart w isRet again =>
    rw [State.setCur_curChan]
    exact .inr (loopBelow_running rfl rfl (loopWeight_restart_lt again _ _))
  | pop isRet last live =>
    rw [State.setCur_curChan]
    exact .inr (loopBelow_popCall live)
  | exhaust =>
    rw [State.setCur_curChan]
    exact .inl (.inl (show (0xFFFF : Word) ≠ 0 by decide))

/-- Only the environment asserts reset. -/
theorem step_resetIn {s t : State} (hstep : step s = .next t) (hreset : s.resetIn = false) :
    t.resetIn = false := by
  rcases (step_inv hstep).kept with ⟨-, rfl⟩ | ⟨-, k, n, hk, rfl⟩ | hkept
  · rfl
  · obtain ⟨-, -, -, -, -, hkept⟩ :=
      startEvent_kept { s with pending := s.pending.eraseIdx k, choices := n } s.pending[k]
    exact hkept.trans hreset
  · exact hkept.resetIn.trans hreset

theorem stepN_resetIn {n : Nat} : ∀ {s t : State}, stepN n s = .next t → s.resetIn = false →
    t.resetIn = false := by
  induction n with
  | zero =>
    rintro s t h hreset
    cases h
    exact hreset
  | succ n ih =>
    intro s t h hreset
    obtain ⟨u, hstep, -⟩ := step_outcome s
    rw [stepN_succ hstep] at h
    exact ih h (step_resetIn hstep hreset)

/-- Settles O46: by well-founded induction on what is left to do. -/
theorem interpreterLoopEnds : Obligations.InterpreterLoopEnds := by
  unfold Obligations.InterpreterLoopEnds
  intro s
  induction hchan : s.curChan using loopBelow_wellFounded.induction generalizing s with
  | _ c ih =>
    subst hchan
    intro hreset hphase
    obtain ⟨i, t, hturn, houtcome⟩ := interpretStep_outcome s
    have hstep := (step_interpret hreset hphase).trans hturn
    have hreset' := step_resetIn hstep hreset
    obtain ⟨-, -, -, -, -, -, -, -, hcur, -⟩ := houtcome.kept
    by_cases hend : t.curChan.delay ≠ 0 ∨ t.curChan.fault ≠ 0
    · exact ⟨1, _, stepN_succ (n := 0) hstep, rfl, hcur, hend⟩
    · have hbelow := houtcome.ends_or_loopBelow.resolve_left hend
      rw [not_or, not_not, not_not] at hend
      have hgoesOn : step (t.setPhase .loopTest) = .next (t.setPhase .interpret) :=
        (step_loopTest hreset' rfl).trans
          (congrArg _ (loopTestStep_goesOn (s := t.setPhase .loopTest) hend.2 hend.1))
      obtain ⟨n, u, hrun, hphase', hcur', hend'⟩ :=
        ih _ hbelow (t.setPhase .interpret) rfl hreset' rfl
      exact ⟨n + 1 + 1, u, (stepN_succ hstep).trans ((stepN_succ hgoesOn).trans hrun), hphase',
        hcur'.trans hcur, hend'⟩

/-! ### Every event ends -/

/-- After some number of steps the block is idle. -/
def State.ComesToRest (s : State) : Prop := ∃ n t, stepN n s = .next t ∧ t.phase = .idle

theorem State.ComesToRest.of_idle {s : State} (h : s.phase = .idle) : s.ComesToRest := ⟨0, s, rfl, h⟩

theorem State.ComesToRest.of_stepN {n : Nat} {s t : State} (hrun : stepN n s = .next t) (h : t.ComesToRest) :
    s.ComesToRest := by
  obtain ⟨m, u, hrest, hidle⟩ := h
  exact ⟨n + m, u, (stepN_add hrun).trans hrest, hidle⟩

theorem State.ComesToRest.of_step {s t : State} (hstep : step s = .next t) (h : t.ComesToRest) :
    s.ComesToRest :=
  h.of_stepN (n := 1) (stepN_succ (n := 0) hstep)

theorem comesToRest_playSeed {s : State} (hreset : s.resetIn = false) (hphase : s.phase = .playSeed) :
    s.ComesToRest :=
  .of_step (step_playSeed hreset hphase) (.of_idle rfl)

/-- The zeroing of the Oscillator Output goes on to the next slot, or ends at the last one. -/
theorem comesToRest_silenceVol {k : Silencing} {s : State} (hreset : s.resetIn = false)
    (hphase : s.phase = .silenceVol k)
    (hnext : ∀ u : State, u.resetIn = false → u.phase = .silenceFreq k → s.cur ≠ 3 → u.cur = s.cur + 1 →
      u.ComesToRest) : s.ComesToRest := by
  refine .of_step (step_silenceVol hreset hphase) ?_
  unfold State.silenceVolStep
  split
  · cases k with
    | stop => exact .of_idle rfl
    | play => exact comesToRest_playSeed hreset rfl
  · next hcur => exact hnext _ hreset rfl hcur rfl

theorem comesToRest_silenceFreq {k : Silencing} : ∀ (m : Nat) {s : State}, s.resetIn = false →
    s.phase = .silenceFreq k → s.cur.val + m = 3 → s.ComesToRest := by
  intro m
  induction m with
  | zero =>
    intro s hreset hphase hm
    refine .of_step (step_silenceFreq hreset hphase) (comesToRest_silenceVol hreset rfl ?_)
    exact fun u _ _ hcur _ => absurd (Fin.ext hm : s.cur = 3) hcur
  | succ m ih =>
    intro s hreset hphase hm
    refine .of_step (step_silenceFreq hreset hphase) (comesToRest_silenceVol hreset rfl ?_)
    intro u hreset' hphase' _ hcur
    have hval : u.cur.val = s.cur.val + 1 := by
      rw [hcur]
      exact Fin.val_add_one_of_lt' (by show s.cur.val + 1 < 4; omega)
    exact ih hreset' hphase' (by omega)

theorem comesToRest_of_silenceFreq {k : Silencing} {s : State} (hreset : s.resetIn = false)
    (hphase : s.phase = .silenceFreq k) : s.ComesToRest :=
  comesToRest_silenceFreq (3 - s.cur.val) hreset hphase (by omega)

theorem comesToRest_autoStopCheck {s : State} (hreset : s.resetIn = false)
    (hphase : s.phase = .autoStopCheck) : s.ComesToRest := by
  refine .of_step (step_autoStopCheck hreset hphase) ?_
  unfold State.autoStopStep
  split
  · exact comesToRest_of_silenceFreq hreset rfl
  · exact .of_idle rfl

/-- The block comes to rest from every state that goes on to the channel after `c`. -/
def RestsAfter (c : Fin 4) : Prop :=
  ∀ u : State, u.resetIn = false → u.cur = c → u.nextChannel.ComesToRest

section Service

variable {s : State} (hreset : s.resetIn = false) (hafter : RestsAfter s.cur)
include hreset hafter

theorem comesToRest_publishVol (hphase : s.phase = .publishVol) : s.ComesToRest := by
  refine .of_step (step_publishVol hreset hphase) ?_
  rcases publishVolStep_spec s with h | h <;> rw [h]
  · exact hafter s hreset rfl
  · exact hafter (s.setOscVol s.cur s.publishedVol) hreset rfl

theorem comesToRest_publishFreq (hphase : s.phase = .publishFreq) : s.ComesToRest := by
  refine .of_step (step_publishFreq hreset hphase) ?_
  obtain ⟨osc, h⟩ := publishFreqStep_eq s
  rw [h]
  exact comesToRest_publishVol (s := { s with osc := osc, phase := .publishVol }) hreset hafter rfl

/-- The loop's test that ends the loop. -/
theorem comesToRest_loopTest_ends (hphase : s.phase = .loopTest)
    (hend : s.curChan.delay ≠ 0 ∨ s.curChan.fault ≠ 0) : s.ComesToRest := by
  refine .of_step (step_loopTest hreset hphase) ?_
  by_cases hfault : s.curChan.fault = 0
  · rw [loopTestStep_waits hfault (hend.resolve_right (not_not.mpr hfault))]
    exact comesToRest_publishFreq (s := (s.setCur s.curChan.countDown).setPhase .publishFreq) hreset hafter rfl
  · rw [loopTestStep_faulted hfault]
    exact hafter s hreset rfl

theorem comesToRest_interpret (hphase : s.phase = .interpret) : s.ComesToRest := by
  obtain ⟨n, t, hrun, hphase', hcur, hend⟩ := interpreterLoopEnds s hreset hphase
  exact (comesToRest_loopTest_ends (stepN_resetIn hrun hreset) (by rwa [hcur]) hphase' hend).of_stepN hrun

theorem comesToRest_loopTest (hphase : s.phase = .loopTest) : s.ComesToRest := by
  by_cases hend : s.curChan.delay ≠ 0 ∨ s.curChan.fault ≠ 0
  · exact comesToRest_loopTest_ends hreset hafter hphase hend
  · rw [not_or, not_not, not_not] at hend
    refine .of_step (step_loopTest hreset hphase) ?_
    rw [loopTestStep_goesOn hend.2 hend.1]
    exact comesToRest_interpret (s := s.setPhase .interpret) hreset hafter rfl

theorem comesToRest_sequence (hphase : s.phase = .sequence) : s.ComesToRest := by
  refine .of_step (step_sequence hreset hphase) ?_
  rw [sequenceStep_eq]
  split
  · exact comesToRest_interpret (s := (s.setCur s.curChan.countDown).setPhase .interpret) hreset hafter rfl
  · exact comesToRest_publishFreq (s := (s.setCur s.curChan.countDown).setPhase .publishFreq) hreset hafter rfl

theorem comesToRest_service (hphase : s.phase = .service) : s.ComesToRest := by
  refine .of_step (step_service hreset hphase) ?_
  unfold State.serviceStep
  split
  · exact hafter s hreset rfl
  · exact comesToRest_sequence
      (s := (s.setCur (s.curChan.runEffects s.params)).setPhase .sequence) hreset hafter rfl

end Service

/-- From the last channel upwards: after channel 3 the end of the tick follows, after any other the service
of the next one. -/
theorem restsAfter (c : Fin 4) : RestsAfter c := by
  induction c using Fin.reverseInduction with
  | last =>
    intro u hreset hcur
    rw [nextChannel_last hcur]
    exact comesToRest_autoStopCheck hreset rfl
  | cast i ih =>
    intro u hreset hcur
    have hne : u.cur ≠ 3 := by rw [hcur]; exact (Fin.castSucc_lt_last i).ne
    have hsucc : u.cur + 1 = i.succ := by rw [hcur, Fin.coeSucc_eq_succ]
    rw [nextChannel_succ hne]
    refine comesToRest_service (s := { u with phase := .service, cur := u.cur + 1 }) hreset ?_ rfl
    show RestsAfter (u.cur + 1)
    rwa [hsucc]

/-- Settles O47: phase by phase; those inside the service of a channel by `restsAfter`. -/
theorem everyEventEnds : Obligations.EveryEventEnds := by
  unfold Obligations.EveryEventEnds
  intro s hreset
  have hafter := restsAfter s.cur
  cases hphase : s.phase with
  | idle => exact State.ComesToRest.of_idle hphase
  | service => exact comesToRest_service hreset hafter hphase
  | sequence => exact comesToRest_sequence hreset hafter hphase
  | interpret => exact comesToRest_interpret hreset hafter hphase
  | loopTest => exact comesToRest_loopTest hreset hafter hphase
  | publishFreq => exact comesToRest_publishFreq hreset hafter hphase
  | publishVol => exact comesToRest_publishVol hreset hafter hphase
  | autoStopCheck => exact comesToRest_autoStopCheck hreset hphase
  | silenceFreq k => exact comesToRest_of_silenceFreq hreset hphase
  | silenceVol k =>
    exact comesToRest_silenceVol hreset hphase fun u hreset' hphase' _ _ =>
      comesToRest_of_silenceFreq hreset' hphase'
  | playSeed => exact comesToRest_playSeed hreset hphase

end Sys2Proof.Machine
end

section
/-! The host commands and reset (47_host_commands.md, 70_reset_and_hazards.md R330, R331). -/

namespace Sys2Proof.Machine

/-! ### `stop` (R274) -/

/-- Settles O51: `StopActions`, then the steps of a stop. -/
theorem stopSilencesTheBlock : Obligations.StopSilencesTheBlock := by
  unfold Obligations.StopSilencesTheBlock
  intro s hreset hphase hpending
  have hstop := stepN_stopActions (s := { s with pending := [] }) hreset
  exact ⟨_, (stepN_succ (step_single hreset hphase hpending)).trans hstop, rfl, rfl, rfl, rfl,
    stopped_chan _, stopped_slot _, rfl, rfl, rfl, rfl, stopped_isStopped _⟩

/-! ### `play` (R271, R272) -/

/-- The state in which `play` reads the header: the image installed, every channel and slot zero. -/
def State.installed (s : State) (image : List Byte) : State :=
  { s.play image with
    osc := Vector.replicate 4 { freq := 0, vol := 0 }, phase := .playSeed, cur := 0 }

theorem installed_slot (s : State) (image : List Byte) (n : Fin 4) :
    (s.installed image).slot n = { freq := 0, vol := 0 } :=
  slot_of_osc_replicate rfl n

theorem installed_chan (s : State) (image : List Byte) (c : Fin 4) :
    (s.installed image).chan c = Channel.zero :=
  State.chan_replicate rfl c

theorem installed_read (s : State) (image : List Byte) (a : Nat) :
    Memory.read (s.installed image).song a = image[a]? :=
  Memory.read_ofBytes image a

section Play

variable {s : State} {image : List Byte} (hreset : s.resetIn = false) (hphase : s.phase = .idle)
  (hpending : s.pending = [.play image])
include hreset hphase hpending

theorem stepN_play_installs : stepN 9 s = .next ({ s with pending := [] }.installed image) := by
  have hsilence := stepN_silence ({ s with pending := [] }.play image) .play hreset rfl rfl
  exact (stepN_succ (step_single hreset hphase hpending)).trans hsilence

theorem stepN_play_seeds : stepN 10 s = .next ({ s with pending := [] }.installed image).playSeedStep := by
  have hplay := stepN_play ({ s with pending := [] }.play image) hreset rfl rfl
  exact (stepN_succ (step_single hreset hphase hpending)).trans hplay

end Play

/-- The track count is the first byte of the image, 0 for an image without a byte (R271, R272). -/
theorem readHeader_trackCount (s : State) : s.readHeader.trackCount = (Memory.read s.song 0).getD 0 := rfl

/-- A channel without a start-track byte takes `SongBounds` (R272). -/
theorem seedChannel_no_startTrack {s : State} {n : Fin 4}
    (h : Memory.read s.song (1 + 2 * s.trackCount.toNat + n.val) = none) :
    s.seedChannel n = Channel.zero.raise .songBounds := by
  rw [State.seedChannel, State.seedCursor, h]

/-- A channel whose start track cannot be entered takes that fault (R272). -/
theorem seedChannel_error {s : State} {n : Fin 4} {id : Byte} {cause : FaultCause}
    (h : Memory.read s.song (1 + 2 * s.trackCount.toNat + n.val) = some id)
    (hstart : s.trackStart id = .error cause) : s.seedChannel n = Channel.zero.raise cause := by
  simp only [State.seedChannel, State.seedCursor, h, hstart]

/-- A channel whose start track can be entered stands at its start (R271). -/
theorem seedChannel_ok {s : State} {n : Fin 4} {id : Byte} {target : Word}
    (h : Memory.read s.song (1 + 2 * s.trackCount.toNat + n.val) = some id)
    (hstart : s.trackStart id = .ok target) :
    s.seedChannel n = { Channel.zero with cursor := target } := by
  simp only [State.seedChannel, State.seedCursor, h, hstart]

/-- What `play` leaves in a channel, in the bytes of the image (R271, R272). -/
theorem seedChannel_of_image {s : State} {image : List Byte} (hread : ∀ a, Memory.read s.song a = image[a]?)
    (n : Fin 4) :
    (image[1 + 2 * s.trackCount.toNat + n.val]? = none →
      s.seedChannel n = { Channel.zero with fault := 3 }) ∧
    ∀ id : Byte, image[1 + 2 * s.trackCount.toNat + n.val]? = some id →
      (s.trackCount.toNat ≤ id.toNat → s.seedChannel n = { Channel.zero with fault := 4 }) ∧
      (id.toNat < s.trackCount.toNat →
        (∀ lo hi : Byte, image[1 + 2 * id.toNat]? = some lo → image[1 + 2 * id.toNat + 1]? = some hi →
          s.seedChannel n = { Channel.zero with cursor := hi ++ lo }) ∧
        (image[1 + 2 * id.toNat + 1]? = none → s.seedChannel n = { Channel.zero with fault := 3 })) := by
  simp only [← hread]
  refine ⟨fun hnone => seedChannel_no_startTrack hnone, fun id hid => ⟨fun hrange => ?_, fun hrange =>
    ⟨fun lo hi hlo hhi => ?_, fun hnone => ?_⟩⟩⟩
  · exact seedChannel_error hid (trackStart_trackRange hrange)
  · exact seedChannel_ok hid (trackStart_ok hrange hlo hhi)
  · exact seedChannel_error hid (trackStart_songBounds hrange (.inr hnone))

/-- Settles O49: the nine steps that install and silence, the tenth that reads the header, and
`seedChannel_of_image` for each channel. -/
theorem playInstallsAndSeeds : Obligations.PlayInstallsAndSeeds := by
  unfold Obligations.PlayInstallsAndSeeds
  intro s image hreset hphase hpending
  refine ⟨⟨_, stepN_play_installs hreset hphase hpending, installed_read _ image, installed_chan _ image,
    installed_slot _ image, rfl, rfl, rfl, rfl, rfl⟩, ?_⟩
  obtain ⟨u, hu⟩ : ∃ u, { s with pending := [] }.installed image = u := ⟨_, rfl⟩
  have hread : ∀ a, Memory.read u.song a = image[a]? := by rw [← hu]; exact installed_read _ image
  have hslot : ∀ n, u.slot n = { freq := 0, vol := 0 } := by rw [← hu]; exact installed_slot _ image
  have hcount : u.readHeader.trackCount = image.getD 0 0 := by
    rw [readHeader_trackCount, hread, List.getD_eq_getElem?_getD]
  refine ⟨u.playSeedStep, hu ▸ stepN_play_seeds hreset hphase hpending, rfl, by rw [← hu]; rfl, hread, hcount,
    readHeader_trackBase u, by rw [← hu]; rfl, by rw [← hu]; rfl, rfl, ⟨activeNibble_playSeedStep u, rfl⟩,
    hslot, fun n => ?_⟩
  rw [State.playSeedStep_chan]
  exact seedChannel_of_image (s := u.readHeader) hread n

/-- Settles O50: O49, where every byte that the header needs is in the image. -/
theorem wholeHeaderPlaysWithoutFault : Obligations.WholeHeaderPlaysWithoutFault := by
  unfold Obligations.WholeHeaderPlaysWithoutFault
  intro s image count hreset hphase hpending hfirst hlength htracks
  obtain ⟨-, t, hrun, -, -, -, hcount, -, -, -, -, hplaying, -, hseeded⟩ :=
    playInstallsAndSeeds s image hreset hphase hpending
  have hcount : t.trackCount = count := by rw [hcount, List.getD_eq_getElem?_getD, hfirst]; rfl
  refine ⟨t, hrun, fun n => ?_, hplaying⟩
  have hn := n.isLt
  obtain ⟨id, hid⟩ : ∃ id, image[1 + 2 * count.toNat + n.val]? = some id :=
    ⟨_, List.getElem?_eq_getElem (by omega)⟩
  have hrange := htracks n id hid
  obtain ⟨lo, hlo⟩ : ∃ lo, image[1 + 2 * id.toNat]? = some lo := ⟨_, List.getElem?_eq_getElem (by omega)⟩
  obtain ⟨hi, hhi⟩ : ∃ hi, image[1 + 2 * id.toNat + 1]? = some hi :=
    ⟨_, List.getElem?_eq_getElem (by omega)⟩
  obtain ⟨-, hstart⟩ := hseeded n
  rw [hcount] at hstart
  rw [((hstart id hid).2 hrange).1 lo hi hlo hhi]
  rfl

/-! ### `playPause`, `mute`, `unmute` (R276, R277) -/

/-- Settles O52: `step_single`, with the bits of the mask by `maskMute_getLsbD` and `maskUnmute_getLsbD`. -/
theorem pauseAndMuteWriteOneBit : Obligations.PauseAndMuteWriteOneBit := by
  unfold Obligations.PauseAndMuteWriteOneBit
  intro s hreset hphase
  refine ⟨fun hpending => ⟨_, rfl, step_single hreset hphase hpending, ?_, ?_, ?_, ?_⟩,
    fun n => ⟨fun hpending => ⟨_, step_single hreset hphase hpending, maskMute_getLsbD s.mask n⟩,
      fun hpending => ⟨_, step_single hreset hphase hpending, maskUnmute_getLsbD s.mask n⟩⟩⟩
  · exact fun ⟨hnibble, henabled⟩ => ⟨hnibble, by simp [henabled]⟩
  · exact fun ⟨hnibble, henabled⟩ => ⟨hnibble, by simp [henabled]⟩
  · exact fun ⟨hnibble, henabled, _⟩ => ⟨hnibble, by simp [henabled]⟩
  · exact fun ⟨hnibble, henabled⟩ hzero => ⟨hnibble, by simp [henabled], hzero⟩

/-! ### Reset (R330, R331) -/

/-- Settles O53: every field of the reset action. -/
theorem resetZeroesEveryRegister : Obligations.ResetZeroesEveryRegister := by
  unfold Obligations.ResetZeroesEveryRegister
  intro s hreset
  exact ⟨_, step_reset hreset, State.resetAction_chan s, rfl, rfl, rfl, rfl, rfl, slot_of_osc_replicate rfl,
    rfl, activeNibble_resetAction s, rfl, State.resetAction_chan s⟩

end Sys2Proof.Machine
end

section
/-! Mute does not halt sequencing (47_host_commands.md R278): each micro-step carries `SameButMute` from the
two states before it to the two after it. -/

namespace Sys2Proof.Machine

section Congruence

variable {s u : State} (h : SameButMute s u)
include h

theorem SameButMute.chan (c : Fin 4) : u.chan c = s.chan c := by rw [State.chan, h.ch, State.chan]

theorem SameButMute.curChan : u.curChan = s.curChan := by
  rw [State.curChan, h.cur, h.chan, State.curChan]

theorem SameButMute.active_eq (c : Fin 4) : u.active c = s.active c := by
  rw [Machine.active_eq, h.active, ← Machine.active_eq]

theorem SameButMute.setCur (x : Channel) : SameButMute (s.setCur x) (u.setCur x) :=
  { h with ch := by rw [State.setCur, State.setChan, h.ch, h.cur]; rfl }

theorem SameButMute.setPhase (p : Phase) : SameButMute (s.setPhase p) (u.setPhase p) :=
  { h with phase := rfl }

/-- Nothing of the Oscillator Output, and of the mask only the active bits, is compared. -/
theorem SameButMute.setOsc (osc osc' : Vector OscSlot 4) :
    SameButMute { s with osc := osc } { u with osc := osc' } :=
  { h with }

theorem SameButMute.setPlace (p : Phase) (c : Fin 4) :
    SameButMute { s with phase := p, cur := c } { u with phase := p, cur := c } :=
  { h with phase := rfl, cur := rfl }

theorem SameButMute.nextChannel : SameButMute s.nextChannel u.nextChannel := by
  unfold State.nextChannel
  rw [h.cur]
  split
  · exact h.setPlace _ _
  · exact h.setPlace _ _

theorem SameButMute.serviceStep : SameButMute s.serviceStep u.serviceStep := by
  unfold State.serviceStep
  rw [h.cur, h.active_eq, h.curChan, h.params]
  split
  · exact h.nextChannel
  · exact (h.setCur _).setPhase _

theorem SameButMute.sequenceStep : SameButMute s.sequenceStep u.sequenceStep := by
  unfold State.sequenceStep
  rw [h.curChan]
  split
  · exact (h.setCur _).setPhase _
  · exact h.setPhase _

theorem SameButMute.loopTestStep : SameButMute s.loopTestStep u.loopTestStep := by
  unfold State.loopTestStep
  rw [h.curChan]
  split
  · exact h.nextChannel
  · split
    · exact (h.setCur _).setPhase _
    · exact h.setPhase _

/-- Muted or not, publishing writes only what is not compared. -/
theorem SameButMute.publishFreqStep : SameButMute s.publishFreqStep u.publishFreqStep := by
  obtain ⟨osc, hs⟩ := publishFreqStep_eq s
  obtain ⟨osc', hu⟩ := publishFreqStep_eq u
  rw [hs, hu]
  exact (h.setOsc osc osc').setPhase .publishVol

theorem SameButMute.publishVolStep : SameButMute s.publishVolStep u.publishVolStep := by
  rw [publishVolStep_volPublished, publishVolStep_volPublished, volPublished_osc s, volPublished_osc u]
  exact (h.setOsc _ _).nextChannel

theorem SameButMute.stopActions : SameButMute s.stopActions u.stopActions :=
  { h with
    ch := rfl
    active := (activeNibble_stopActions u).trans (activeNibble_stopActions s).symm
    tickEnable := rfl
    phase := rfl
    cur := rfl }

theorem SameButMute.autoStopStep : SameButMute s.autoStopStep u.autoStopStep := by
  unfold State.autoStopStep
  rw [h.active]
  split
  · exact h.stopActions
  · exact h.setPlace _ _

theorem SameButMute.silenceFreqStep (k : Silencing) :
    SameButMute (s.silenceFreqStep k) (u.silenceFreqStep k) :=
  (h.setOsc _ _).setPhase _

theorem SameButMute.silenceVolStep (k : Silencing) :
    SameButMute (s.silenceVolStep k) (u.silenceVolStep k) := by
  unfold State.silenceVolStep
  rw [h.cur]
  split
  · exact (h.setOsc _ _).setPlace _ _
  · exact (h.setOsc _ _).setPlace _ _

/-- Seeding a channel reads the song and the track count only. -/
theorem SameButMute.seedChannel (n : Fin 4) : u.seedChannel n = s.seedChannel n := by
  simp only [State.seedChannel, State.seedCursor, h.song, h.trackCount, trackStart_congr h.song h.trackCount]

theorem SameButMute.readHeader : SameButMute s.readHeader u.readHeader :=
  { h with
    trackCount := by rw [readHeader_trackCount, readHeader_trackCount, h.song]
    trackBase := by simp only [State.readHeader, h.song] }

theorem SameButMute.playSeedStep : SameButMute s.playSeedStep u.playSeedStep where
  ch := State.ch_ext fun c => by
    rw [State.playSeedStep_chan, State.playSeedStep_chan, h.readHeader.seedChannel]
  active := (activeNibble_playSeedStep u).trans (activeNibble_playSeedStep s).symm
  tickEnable := rfl
  tempo := by rw [State.playSeedStep_tempo, State.playSeedStep_tempo, h.params]
  trackCount := h.readHeader.trackCount
  trackBase := h.readHeader.trackBase
  song := h.song
  params := h.params
  phase := rfl
  cur := rfl
  pending := h.pending
  resetIn := h.resetIn
  choices := h.choices

theorem SameButMute.resetAction : SameButMute s.resetAction u.resetAction where
  ch := rfl
  active := rfl
  tickEnable := rfl
  tempo := by simp only [State.resetAction, h.params]
  trackCount := rfl
  trackBase := rfl
  song := h.song
  params := h.params
  phase := rfl
  cur := rfl
  pending := rfl
  resetIn := rfl
  choices := h.choices

theorem SameButMute.startEvent (e : Event) : SameButMute (s.startEvent e) (u.startEvent e) := by
  cases e with
  | tick =>
    rw [startEvent_tick, startEvent_tick]
    cases henabled : s.tickEnable with
    | true =>
      rw [beginTick_enabled henabled, beginTick_enabled (h.tickEnable.trans henabled)]
      exact h.setPlace _ _
    | false =>
      rw [beginTick_disabled henabled, beginTick_disabled (h.tickEnable.trans henabled)]
      exact h
  | play image => exact { h with ch := rfl, song := rfl, phase := rfl, cur := rfl }
  | stop => exact h.stopActions
  | playPause => exact { h with tickEnable := congrArg (!·) h.tickEnable }
  | mute n =>
    exact { h with active := ((activeNibble_mute u n).trans h.active).trans (activeNibble_mute s n).symm }
  | unmute n =>
    exact { h with
      active := ((activeNibble_unmute u n).trans h.active).trans (activeNibble_unmute s n).symm }

/-- The events that wait and the arbiter's count are compared, so the same event begins. -/
theorem SameButMute.idleStep : SameButMute s.idleStep u.idleStep := by
  have hrest : ∀ (l : List Event) (n : Nat),
      SameButMute { s with pending := l, choices := n } { u with pending := l, choices := n } :=
    fun l n => { h with pending := rfl, choices := rfl }
  unfold State.idleStep
  rw [h.pending, h.choices]
  split
  · exact h
  · exact (hrest [] s.choices).startEvent _
  · exact (hrest _ _).startEvent _

/-- An instruction writes the channel in service and `tempo`, alike in both states (R279, R312). -/
theorem SameButMute.exec {i : Instr} {s' u' : State} (hs : exec i s = .next s') (hu : exec i u = .next u') :
    SameButMute s' u' := by
  obtain ⟨hos, -⟩ := instructionsStayInTheirChannel i s s' hs
  obtain ⟨hou, -⟩ := instructionsStayInTheirChannel i u u' hu
  obtain ⟨hcurChan, htempo⟩ := instructionsReadOnlyTheirChannel i u s u' s' h.curChan h.song h.trackCount
    h.params h.tempo hu hs
  have hcur : u'.cur = s'.cur := hou.cur.trans (h.cur.trans hos.cur.symm)
  exact {
    ch := State.ch_ext fun c => by
      by_cases hc : c = s.cur
      · rw [State.curChan, hou.cur, h.cur, ← hc, State.curChan, hos.cur, ← hc] at hcurChan
        exact hcurChan
      · exact (hou.chan c (by rwa [h.cur])).trans ((h.chan c).trans (hos.chan c hc).symm)
    active := by
      have hmask : u'.activeNibble = u.activeNibble := by rw [State.activeNibble, hou.mask]; rfl
      have hmask' : s'.activeNibble = s.activeNibble := by rw [State.activeNibble, hos.mask]; rfl
      rw [hmask, h.active, hmask']
    tickEnable := hou.tickEnable.trans (h.tickEnable.trans hos.tickEnable.symm)
    tempo := htempo
    trackCount := hou.trackCount.trans (h.trackCount.trans hos.trackCount.symm)
    trackBase := hou.trackBase.trans (h.trackBase.trans hos.trackBase.symm)
    song := hou.song.trans (h.song.trans hos.song.symm)
    params := hou.params.trans (h.params.trans hos.params.symm)
    phase := hou.phase.trans (h.phase.trans hos.phase.symm)
    cur := hcur
    pending := hou.pending.trans (h.pending.trans hos.pending.symm)
    resetIn := hou.resetIn.trans (h.resetIn.trans hos.resetIn.symm)
    choices := hou.choices.trans (h.choices.trans hos.choices.symm) }

theorem SameButMute.fetch : u.fetch = s.fetch := by
  simp only [State.fetch, State.instrBytes, State.fetchAddr, h.curChan, h.params, h.song, h.trackBase]

/-- The two states fetch the same instruction, or take the same fault. -/
theorem SameButMute.interpretStep :
    ∃ s' u', interpretStep s = .next s' ∧ interpretStep u = .next u' ∧ SameButMute s' u' := by
  cases hfetch : s.fetch with
  | ok i n =>
    obtain ⟨s', hs, -⟩ := exec_outcome i s
    obtain ⟨u', hu, -⟩ := exec_outcome i u
    exact ⟨_, _, interpretStep_of_fetch hfetch hs, interpretStep_of_fetch (h.fetch.trans hfetch) hu,
      (h.exec hs hu).setPhase _⟩
  | bad e =>
    refine ⟨_, _, interpretStep_of_bad hfetch, interpretStep_of_bad (h.fetch.trans hfetch), ?_⟩
    rw [State.raise, State.raise, h.curChan]
    exact (h.setCur _).setPhase _

/-- The two states take the same micro-step. -/
theorem SameButMute.step : ∃ s' u', step s = .next s' ∧ step u = .next u' ∧ SameButMute s' u' := by
  cases hreset : s.resetIn with
  | true => exact ⟨_, _, step_reset hreset, step_reset (h.resetIn.trans hreset), h.resetAction⟩
  | false =>
    have hreset' : u.resetIn = false := h.resetIn.trans hreset
    have hphase' : u.phase = s.phase := h.phase
    cases hphase : s.phase <;> rw [hphase] at hphase'
    case idle => exact ⟨_, _, step_idle hreset hphase, step_idle hreset' hphase', h.idleStep⟩
    case service => exact ⟨_, _, step_service hreset hphase, step_service hreset' hphase', h.serviceStep⟩
    case sequence =>
      exact ⟨_, _, step_sequence hreset hphase, step_sequence hreset' hphase', h.sequenceStep⟩
    case interpret =>
      rw [step_interpret hreset hphase, step_interpret hreset' hphase']
      exact h.interpretStep
    case loopTest =>
      exact ⟨_, _, step_loopTest hreset hphase, step_loopTest hreset' hphase', h.loopTestStep⟩
    case publishFreq =>
      exact ⟨_, _, step_publishFreq hreset hphase, step_publishFreq hreset' hphase', h.publishFreqStep⟩
    case publishVol =>
      exact ⟨_, _, step_publishVol hreset hphase, step_publishVol hreset' hphase', h.publishVolStep⟩
    case autoStopCheck =>
      exact ⟨_, _, step_autoStopCheck hreset hphase, step_autoStopCheck hreset' hphase', h.autoStopStep⟩
    case silenceFreq k =>
      exact ⟨_, _, step_silenceFreq hreset hphase, step_silenceFreq hreset' hphase', h.silenceFreqStep k⟩
    case silenceVol k =>
      exact ⟨_, _, step_silenceVol hreset hphase, step_silenceVol hreset' hphase', h.silenceVolStep k⟩
    case playSeed =>
      exact ⟨_, _, step_playSeed hreset hphase, step_playSeed hreset' hphase', h.playSeedStep⟩

end Congruence

/-- Settles O54: by `SameButMute.step`, one congruence for each phase; `mute` and `unmute` leave the active bits. -/
theorem muteDoesNotHaltSequencing : Obligations.MuteDoesNotHaltSequencing := by
  unfold Obligations.MuteDoesNotHaltSequencing
  have hrefl : ∀ s : State, SameButMute s s := fun _ =>
    ⟨rfl, rfl, rfl, rfl, rfl, rfl, rfl, rfl, rfl, rfl, rfl, rfl, rfl⟩
  refine ⟨fun s u s' u' h hs hu => ?_, fun s n => ⟨{ hrefl s with active := activeNibble_mute s n },
    { hrefl s with active := activeNibble_unmute s n }⟩⟩
  obtain ⟨a, b, ha, hb, hab⟩ := h.step
  cases ha.symm.trans hs
  cases hb.symm.trans hu
  exact hab

end Sys2Proof.Machine
end
